-- ==== Sys2Proof/Word.lean ====
section
/-! DEFINITION. The words of the block: bytes, addresses, trace words, pens, colour codes and palette indices
(spec/00_scope.md R6; spec/10_state.md R22, R25, R29; spec/30_encoding.md R101). -/

namespace Sys2Proof

/-- One byte of bus data, unsigned (R6). -/
abbrev Byte := BitVec 8

/-- A 16-bit bus address (R70). -/
abbrev BusAddr := BitVec 16

/-- A transaction packed into 32 bits, the spec's own bookkeeping (R101). -/
abbrev TraceWord := BitVec 32

/-- The 3-bit pixel value a pattern decodes to (R12, R22). -/
abbrev Pen := BitVec 3

/-- A 3-bit colour code (R29, R213). -/
abbrev Colour := BitVec 3

/-- A palette index 0..63 (R12, R25). -/
abbrev PalIdx := BitVec 6

end Sys2Proof
end

