-- ==== Sys2Proof/Machine/Shapes.lean ====
section
/-! DEFINITION. The shapes of the block's state: banks, planes and layers (spec/00_scope.md R11), and `Tab`, a table of
exactly `2 ^ n` entries that holds the caches, the
bitmaps and the sets of dirty bits (spec/10_state.md R21, R22, R24, R25, R26, R31). -/

namespace Sys2Proof.Machine

/-- One of the two character banks (R20). -/
inductive Bank where
  | bank0 | bank1
deriving DecidableEq, Repr

/-- One of the three planes: 0 front, 1 middle, 2 back (R11). -/
inductive Plane where
  | front | middle | back
deriving DecidableEq, Repr

/-- One of the four layers: 0 sprites, 1 front, 2 middle, 3 back (R11). -/
inductive Layer where
  | sprites | front | middle | back
deriving DecidableEq, Repr

/-- Every bank once. -/
def Bank.all : List Bank := [.bank0, .bank1]

/-- Every plane once, in the order of their numbers. -/
def Plane.all : List Plane := [.front, .middle, .back]

/-- The number of a bank (R20). -/
def Bank.number : Bank → Nat
  | .bank0 => 0
  | .bank1 => 1

/-- The number of a plane (R11). -/
def Plane.number : Plane → Nat
  | .front => 0
  | .middle => 1
  | .back => 2

/-- The number of a layer (R11). -/
def Layer.number : Layer → Nat
  | .sprites => 0
  | .front => 1
  | .middle => 2
  | .back => 3

/-- The layer a plane is drawn as: number n + 1 (R195). -/
def Plane.layer : Plane → Layer
  | .front => .front
  | .middle => .middle
  | .back => .back

/-- The bank a bank-select bit names (R29, R33). -/
def Bank.ofBit : Bool → Bank
  | false => .bank0
  | true => .bank1

/-- The layer a 2-bit code names (R11, R230). -/
def Layer.ofCode (c : BitVec 2) : Layer :=
  if c = 0 then .sprites else if c = 1 then .front else if c = 2 then .middle else .back

/-- One thing for each bank. -/
structure PerBank (α : Type) where
  bank0 : α
  bank1 : α
deriving DecidableEq, Repr

/-- One thing for each plane. -/
structure PerPlane (α : Type) where
  front : α
  middle : α
  back : α
deriving DecidableEq, Repr

/-- The entry of bank `b`. -/
def PerBank.get {α : Type} (p : PerBank α) : Bank → α
  | .bank0 => p.bank0
  | .bank1 => p.bank1

/-- The pair of a function's values. -/
def PerBank.ofFn {α : Type} (f : Bank → α) : PerBank α := ⟨f .bank0, f .bank1⟩

/-- The pair with bank `b`'s entry replaced. -/
def PerBank.set {α : Type} (p : PerBank α) (b : Bank) (v : α) : PerBank α :=
  .ofFn fun b' => if b' = b then v else p.get b'

/-- The entry of plane `n`. -/
def PerPlane.get {α : Type} (p : PerPlane α) : Plane → α
  | .front => p.front
  | .middle => p.middle
  | .back => p.back

/-- The triple of a function's values. -/
def PerPlane.ofFn {α : Type} (f : Plane → α) : PerPlane α := ⟨f .front, f .middle, f .back⟩

/-- The triple with plane `n`'s entry replaced. -/
def PerPlane.set {α : Type} (p : PerPlane α) (n : Plane) (v : α) : PerPlane α :=
  .ofFn fun n' => if n' = n then v else p.get n'

/-- A table of exactly `2 ^ n` entries, numbered from 0: a perfect binary tree, so that equal tables are equal data. -/
inductive Tab (α : Type) : Nat → Type where
  | leaf (v : α) : Tab α 0
  | node {n : Nat} (lo hi : Tab α n) : Tab α (n + 1)
deriving DecidableEq, Repr

/-- Entry `i` of the table; the index is taken modulo `2 ^ n`. -/
def Tab.get {α : Type} : {n : Nat} → Tab α n → Nat → α
  | _, .leaf v, _ => v
  | n + 1, .node lo hi, i => if i.testBit n then hi.get i else lo.get i

/-- The table whose entry `i` is `f i`. -/
def Tab.tabulate {α : Type} : (n : Nat) → (Nat → α) → Tab α n
  | 0, f => .leaf (f 0)
  | n + 1, f => .node (Tab.tabulate n f) (Tab.tabulate n fun i => f (2 ^ n + i))

/-- The table whose every entry is `v`. -/
def Tab.fill {α : Type} (v : α) : (n : Nat) → Tab α n
  | 0 => .leaf v
  | n + 1 => .node (Tab.fill v n) (Tab.fill v n)

/-- The table with entry `i` replaced; the index is taken modulo `2 ^ n`. -/
def Tab.set {α : Type} : {n : Nat} → Tab α n → Nat → α → Tab α n
  | _, .leaf _, _, v => .leaf v
  | n + 1, .node lo hi, i, v => if i.testBit n then .node lo (hi.set i v) else .node (lo.set i v) hi

/-- Entry `(x, y)` of a 256 x 256 bitmap, written `[y][x]` in the rules (R11). -/
def Tab.px {α : Type} (t : Tab α 16) (x y : Nat) : α := t.get (256 * y + x)

/-- The 256 x 256 bitmap whose pixel `(x, y)` is `f x y`. -/
def Tab.bitmap {α : Type} (f : Nat → Nat → α) : Tab α 16 := Tab.tabulate 16 fun p => f (p % 256) (p / 256)

end Sys2Proof.Machine
end

