-- ==== Sys2Proof/Syntax.lean ====
section
/-! DEFINITION. The transactions of TaitoSJ-core, one constructor per row of spec/opcode_table.json
(spec/30_encoding.md R107), with the agents that issue them (spec/00_scope.md R10) and the ports they reach (R102). -/

namespace Sys2Proof

/-- Who issues an event (R10). -/
inductive Agent where
  /-- the Z80, through the host's memory-bus dispatcher -/
  | cpu
  /-- the 68705, through its three ports -/
  | mcu
  /-- the emulator's scheduler and video loop -/
  | host
deriving DecidableEq, Repr

/-- The seven transaction kinds (R100). -/
inductive Kind where
  | cw | cr | mw | mr | sync | frame | reset
deriving DecidableEq, Repr

/-- The two port spaces an address can lie in (R70 (1), (2)). -/
inductive Space where
  | cpu | mcu
deriving DecidableEq, Repr

/-- The direction of an access (R100). -/
inductive Dir where
  | write | read
deriving DecidableEq, Repr

/-- The ports of the address map (R102). -/
inductive Port where
  | mcudata | mcustatus | cram | vram0 | vram1 | vram2 | colscroll | spram | palram | priority | coll | gfxrom
  | alpinein | scroll | colorbank | collclr | gfxptr | banksw | alpinecode | viden | porta | portb | portc
deriving DecidableEq, Repr

/-- A transaction. `off` is the offset of R104 inside the port, `v` the byte written. -/
inductive Instr where
  /-- CPU write of character RAM (R130) -/
  | cwCram (off : Nat) (v : Byte)
  /-- CPU write of video RAM, plane 0 (R131) -/
  | cwVram0 (off : Nat) (v : Byte)
  /-- CPU write of video RAM, plane 1 (R132) -/
  | cwVram1 (off : Nat) (v : Byte)
  /-- CPU write of video RAM, plane 2 (R133) -/
  | cwVram2 (off : Nat) (v : Byte)
  /-- CPU read of video RAM, plane 0 (R134) -/
  | crVram0 (off : Nat)
  /-- CPU read of video RAM, plane 1 (R135) -/
  | crVram1 (off : Nat)
  /-- CPU read of video RAM, plane 2 (R136) -/
  | crVram2 (off : Nat)
  /-- CPU write of the column scroll RAM (R137) -/
  | cwColscroll (off : Nat) (v : Byte)
  /-- CPU read of the column scroll RAM (R138) -/
  | crColscroll (off : Nat)
  /-- CPU write of sprite RAM (R139) -/
  | cwSpram (off : Nat) (v : Byte)
  /-- CPU read of sprite RAM (R140) -/
  | crSpram (off : Nat)
  /-- CPU write of palette RAM (R141) -/
  | cwPalram (off : Nat) (v : Byte)
  /-- CPU write of the priority register (R142) -/
  | cwPriority (v : Byte)
  /-- CPU write of a scroll register (R143) -/
  | cwScroll (off : Nat) (v : Byte)
  /-- CPU write of a colour-bank register (R144) -/
  | cwColorbank (off : Nat) (v : Byte)
  /-- CPU read of a collision register (R145) -/
  | crColl (off : Nat)
  /-- CPU clear-write of the collision registers (R146) -/
  | cwCollclr (v : Byte)
  /-- CPU write of one byte of the graphics-ROM pointer (R150) -/
  | cwGfxptr (off : Nat) (v : Byte)
  /-- CPU read of the graphics-ROM data port (R151) -/
  | crGfxrom
  /-- CPU write of the bank-switch register (R152) -/
  | cwBanksw (v : Byte)
  /-- CPU write of the video-enable register (R153) -/
  | cwViden (v : Byte)
  /-- CPU write of the MCU data port (R291, R316) -/
  | cwMcudata (v : Byte)
  /-- CPU read of the MCU data port (R292, R316) -/
  | crMcudata
  /-- CPU read of the MCU status port (R293, R316) -/
  | crMcustatus
  /-- MCU read of port A (R300) -/
  | mrPorta
  /-- MCU write of port A (R310) -/
  | mwPorta (v : Byte)
  /-- MCU write of port B, the control lines (R301) -/
  | mwPortb (v : Byte)
  /-- MCU read of port B (R308) -/
  | mrPortb
  /-- MCU read of port C (R309) -/
  | mrPortc
  /-- CPU write of the alpine code port (R313) -/
  | cwAlpinecode (v : Byte)
  /-- CPU read of the protected input port (R314) -/
  | crAlpinein
  /-- the fence (R83) -/
  | sync
  /-- the render of one frame (R240) -/
  | frame
  /-- the reset of the block (R370) -/
  | reset
deriving DecidableEq, Repr

end Sys2Proof
end

