-- ==== Sys2Proof/Config.lean ====
section
/-! DEFINITION. The configuration record `CFG` (spec/00_scope.md R5) as plain data, and
the free values: what the spec leaves to the host and no rule constrains (spec/00_scope.md R8, R9). The state holds the
record in a field that no event changes, so that a statement about every state is a statement about every configuration
(assumption log 2). -/

namespace Sys2Proof

open Machine (Tab PerPlane)

/-- The inclusive address range of a port (R102). -/
structure PortRange where
  port : Port
  first : Nat
  last : Nat
deriving DecidableEq, Repr

/-- `CFG.ADDR_MAP`. -/
abbrev AddrMap := List PortRange

/-- `CFG.VISIBLE`, an inclusive rectangle of the 256 x 256 bitmap (R5, R235). -/
structure Rect where
  xFirst : Nat
  xLast : Nat
  yFirst : Nat
  yLast : Nat
deriving DecidableEq, Repr

/-- `CFG.PLANE_WEIGHT`: for each pen bit, the plane of the bank (at that many times `PLANE_STRIDE`) that carries it
(R5, R171). -/
structure PlaneWeight where
  bit0 : Fin 3
  bit1 : Fin 3
  bit2 : Fin 3
deriving DecidableEq, Repr

/-- `CFG.ROW_BIT_ORDER` (R5, 92_eei_decisions.md D7, 93_implementation_defined.md G7). -/
inductive RowBitOrder where
  /-- pixel x takes bit 7 - x -/
  | msbFirst
  /-- pixel x takes bit x -/
  | lsbFirst
deriving DecidableEq, Repr

/-- `CFG.OBJEX_MODE` (R5, R388). -/
inductive ObjexMode where
  | ignored | refuse
deriving DecidableEq, Repr

/-- `CFG.PROT_VARIANT` (R5, R290). -/
inductive ProtVariant where
  | mcu | alpine | noProt
deriving DecidableEq, Repr

/-- The control lines of MCU port B (R106, R302 to R311). -/
inductive PortBLine where
  | intrq | readLatch | writeLatch | memWrite | memRead | addrLow | addrHigh
deriving DecidableEq, Repr

/-- `CFG.PAL_WEIGHT`, least to most significant (R5, R233). -/
structure PalWeight where
  w0 : Nat
  w1 : Nat
  w2 : Nat
deriving DecidableEq, Repr

/-- `CFG` (R5). The functions `SPR_SX`, `SPR_SY` and `ACTIVE_TEST` of one byte are tables of 256 entries; the PROM and
the graphics ROM are as many entries as the host has supplied, the rest being free (assumption log 3, 4, 15). -/
structure Config where
  /-- `ADDR_MAP` -/
  addrMap : AddrMap
  /-- `VISIBLE` -/
  visible : Rect
  /-- `PLANE_WEIGHT` -/
  planeWeight : PlaneWeight
  /-- `ROW_BIT_ORDER` -/
  rowBitOrder : RowBitOrder
  /-- `SCROLL_F1` -/
  scrollF1 : PerPlane Int
  /-- `SCROLL_F2` -/
  scrollF2 : PerPlane Int
  /-- `SPR_SX`, by raw x byte -/
  sprSx : Tab Int 8
  /-- `SPR_SY`, by raw y byte -/
  sprSy : Tab Int 8
  /-- `SPR_MIRROR_X` -/
  sprMirrorX : Int
  /-- `SPR_MIRROR_Y` -/
  sprMirrorY : Int
  /-- `ACTIVE_TEST`, by raw y byte -/
  activeTest : Tab Bool 8
  /-- `SPC_FUDGE` -/
  spcFudge : Int
  /-- `TILE_PROPAGATE` -/
  tilePropagate : Bool
  /-- `COLL_NEEDS_SPRITES_ON` -/
  collNeedsSpritesOn : Bool
  /-- `OBJEX_MODE` -/
  objexMode : ObjexMode
  /-- `PAL_WEIGHT` -/
  palWeight : PalWeight
  /-- `PROM`, from address 0 -/
  prom : List (BitVec 4)
  /-- `GFXROM`, from address 0 -/
  gfxRom : List Byte
  /-- `GFXROM_LIMIT` -/
  gfxRomLimit : Nat
  /-- `PROT_VARIANT` -/
  protVariant : ProtVariant
  /-- `PORTB_MAP`: the line of each bit -/
  portbMap : Vector (Option PortBLine) 8
  /-- `ALPINE_TABLE`: magic code and output value -/
  alpineTable : List (Byte × Byte)
  /-- `STATUS_READ_SYNCS` -/
  statusReadSyncs : Bool
deriving DecidableEq, Repr

/-- DESIGN CHOICE (assumption log 3). The PROM entry at an address the host has supplied none for (U5): a free value. -/
opaque Config.freePromEntry : Nat → BitVec 4

/-- DESIGN CHOICE (assumption log 4). The graphics-ROM byte at an address the host has supplied none for (U9): a free
value, the same at every read of the address. -/
opaque Config.freeRomByte : Nat → Byte

/-- DESIGN CHOICE (assumption log 5). The byte a `BusRead` returns when the host has laid out none (U7): a free value for
each value of the counter `draws`. -/
opaque Config.freeBusByte : Nat → Byte

/-- DESIGN CHOICE (assumption log 6). The byte an `InPort` returns when the host has laid out none (U10): a free value
for each value of the counter `draws`. -/
opaque Config.freePortByte : Nat → Byte

end Sys2Proof
end

