-- ==== Sys2Proof/WellFormed.lean ====
section
/-! DEFINITION. When a transaction is well formed: its offset lies inside its port
(spec/20_memory.md R71; spec/30_encoding.md R102, R104). -/

namespace Sys2Proof

/-- The offset lies in the port's range; a transaction without an offset operand is always well formed. -/
def WellFormed : Instr → Bool
  | .cwCram off _ => off < 0x3000
  | .cwVram0 off _ => off < 0x400
  | .cwVram1 off _ => off < 0x400
  | .cwVram2 off _ => off < 0x400
  | .crVram0 off => off < 0x400
  | .crVram1 off => off < 0x400
  | .crVram2 off => off < 0x400
  | .cwColscroll off _ => off < 0x60
  | .crColscroll off => off < 0x60
  | .cwSpram off _ => off < 0x80
  | .crSpram off => off < 0x80
  | .cwPalram off _ => off < 0x80
  | .cwPriority _ => true
  | .cwScroll off _ => off < 6
  | .cwColorbank off _ => off < 2
  | .crColl off => off < 4
  | .cwCollclr _ => true
  | .cwGfxptr off _ => off < 2
  | .crGfxrom => true
  | .cwBanksw _ => true
  | .cwViden _ => true
  | .cwMcudata _ => true
  | .crMcudata => true
  | .crMcustatus => true
  | .mrPorta => true
  | .mwPorta _ => true
  | .mwPortb _ => true
  | .mrPortb => true
  | .mrPortc => true
  | .cwAlpinecode _ => true
  | .crAlpinein => true
  | .sync => true
  | .frame => true
  | .reset => true

end Sys2Proof
end

