-- ==== Sys2Proof/Decode.lean ====
section
/-! DEFINITION. The decoder of trace words (spec/30_encoding.md R101, R102, R108), total on every 32-bit word and
rejecting by name, and after it the encoder. Both take the address map as an argument (92_eei_decisions.md D3). -/

namespace Sys2Proof

/-- Every port once, in the order of R102's table. -/
def Port.all : List Port :=
  [.mcudata, .mcustatus, .cram, .vram0, .vram1, .vram2, .colscroll, .spram, .palram, .priority, .coll, .gfxrom,
   .alpinein, .scroll, .colorbank, .collclr, .gfxptr, .banksw, .alpinecode, .viden, .porta, .portb, .portc]

/-- The space a port's addresses lie in (R102). -/
def Port.space : Port → Space
  | .porta | .portb | .portc => .mcu
  | _ => .cpu

/-- The number of addresses of a port: `last - first + 1` of R102. -/
def Port.size : Port → Nat
  | .cram => 0x3000
  | .vram0 | .vram1 | .vram2 => 0x400
  | .colscroll => 0x60
  | .spram | .palram => 0x80
  | .coll => 4
  | .scroll => 6
  | .colorbank | .gfxptr => 2
  | .mcudata | .mcustatus | .priority | .gfxrom | .alpinein | .collclr | .banksw | .alpinecode | .viden
  | .porta | .portb | .portc => 1

/-- The directions a port has: the column "dir" of R102 (and R74). -/
def Port.has : Port → Dir → Bool
  | .mcudata, _ | .vram0, _ | .vram1, _ | .vram2, _ | .colscroll, _ | .spram, _ | .porta, _ | .portb, _ => true
  | .mcustatus, d | .coll, d | .gfxrom, d | .alpinein, d | .portc, d => d == .read
  | .cram, d | .palram, d | .priority, d | .scroll, d | .colorbank, d | .collclr, d | .gfxptr, d | .banksw, d
  | .alpinecode, d | .viden, d => d == .write

/-- The kind of a transaction: the column "format" of R107. -/
def Instr.kind : Instr → Kind
  | .cwCram _ _ | .cwVram0 _ _ | .cwVram1 _ _ | .cwVram2 _ _ | .cwColscroll _ _ | .cwSpram _ _ | .cwPalram _ _
  | .cwPriority _ | .cwScroll _ _ | .cwColorbank _ _ | .cwCollclr _ | .cwGfxptr _ _ | .cwBanksw _ | .cwViden _
  | .cwMcudata _ | .cwAlpinecode _ => .cw
  | .crVram0 _ | .crVram1 _ | .crVram2 _ | .crColscroll _ | .crSpram _ | .crColl _ | .crGfxrom | .crMcudata
  | .crMcustatus | .crAlpinein => .cr
  | .mwPorta _ | .mwPortb _ => .mw
  | .mrPorta | .mrPortb | .mrPortc => .mr
  | .sync => .sync
  | .frame => .frame
  | .reset => .reset

/-- Who issues a kind of transaction (R100). -/
def Kind.agent : Kind → Agent
  | .cw | .cr => .cpu
  | .mw | .mr => .mcu
  | .sync | .frame | .reset => .host

/-- Who issues a transaction (R350). -/
def Instr.agent (i : Instr) : Agent := i.kind.agent

/-- The port a transaction reaches; the host events reach none (R100). -/
def Instr.port : Instr → Option Port
  | .cwCram _ _ => some .cram
  | .cwVram0 _ _ | .crVram0 _ => some .vram0
  | .cwVram1 _ _ | .crVram1 _ => some .vram1
  | .cwVram2 _ _ | .crVram2 _ => some .vram2
  | .cwColscroll _ _ | .crColscroll _ => some .colscroll
  | .cwSpram _ _ | .crSpram _ => some .spram
  | .cwPalram _ _ => some .palram
  | .cwPriority _ => some .priority
  | .cwScroll _ _ => some .scroll
  | .cwColorbank _ _ => some .colorbank
  | .crColl _ => some .coll
  | .cwCollclr _ => some .collclr
  | .cwGfxptr _ _ => some .gfxptr
  | .crGfxrom => some .gfxrom
  | .cwBanksw _ => some .banksw
  | .cwViden _ => some .viden
  | .cwMcudata _ | .crMcudata => some .mcudata
  | .crMcustatus => some .mcustatus
  | .mrPorta | .mwPorta _ => some .porta
  | .mwPortb _ | .mrPortb => some .portb
  | .mrPortc => some .portc
  | .cwAlpinecode _ => some .alpinecode
  | .crAlpinein => some .alpinein
  | .sync | .frame | .reset => none

/-- The offset operand; a port of size one ignores it (R104). -/
def Instr.offset : Instr → Nat
  | .cwCram off _ | .cwVram0 off _ | .cwVram1 off _ | .cwVram2 off _ | .crVram0 off | .crVram1 off | .crVram2 off
  | .cwColscroll off _ | .crColscroll off | .cwSpram off _ | .crSpram off | .cwPalram off _ | .cwScroll off _
  | .cwColorbank off _ | .crColl off | .cwGfxptr off _ => off
  | .cwPriority _ | .cwCollclr _ | .crGfxrom | .cwBanksw _ | .cwViden _ | .cwMcudata _ | .crMcudata | .crMcustatus
  | .mrPorta | .mwPorta _ | .mwPortb _ | .mrPortb | .mrPortc | .cwAlpinecode _ | .crAlpinein
  | .sync | .frame | .reset => 0

/-- The data byte of the trace word: the byte written, 0 for reads and host events (R101). -/
def Instr.data : Instr → Byte
  | .cwCram _ v | .cwVram0 _ v | .cwVram1 _ v | .cwVram2 _ v | .cwColscroll _ v | .cwSpram _ v | .cwPalram _ v
  | .cwPriority v | .cwScroll _ v | .cwColorbank _ v | .cwCollclr v | .cwGfxptr _ v | .cwBanksw v | .cwViden v
  | .cwMcudata v | .mwPorta v | .mwPortb v | .cwAlpinecode v => v
  | .crVram0 _ | .crVram1 _ | .crVram2 _ | .crColscroll _ | .crSpram _ | .crColl _ | .crGfxrom | .crMcudata
  | .crMcustatus | .mrPorta | .mrPortb | .mrPortc | .crAlpinein | .sync | .frame | .reset => 0

/-- The spec's default address map (R102, 92_eei_decisions.md D3). -/
def AddrMap.standard : AddrMap :=
  [⟨.mcudata, 0x8800, 0x8800⟩, ⟨.mcustatus, 0x8801, 0x8801⟩, ⟨.cram, 0x9000, 0xBFFF⟩, ⟨.vram0, 0xC400, 0xC7FF⟩,
   ⟨.vram1, 0xC800, 0xCBFF⟩, ⟨.vram2, 0xCC00, 0xCFFF⟩, ⟨.colscroll, 0xD000, 0xD05F⟩, ⟨.spram, 0xD100, 0xD17F⟩,
   ⟨.palram, 0xD200, 0xD27F⟩, ⟨.priority, 0xD300, 0xD300⟩, ⟨.coll, 0xD400, 0xD403⟩, ⟨.gfxrom, 0xD404, 0xD404⟩,
   ⟨.alpinein, 0xD40B, 0xD40B⟩, ⟨.scroll, 0xD500, 0xD505⟩, ⟨.colorbank, 0xD506, 0xD507⟩, ⟨.collclr, 0xD508, 0xD508⟩,
   ⟨.gfxptr, 0xD509, 0xD50A⟩, ⟨.banksw, 0xD50E, 0xD50E⟩, ⟨.alpinecode, 0xD50F, 0xD50F⟩, ⟨.viden, 0xD600, 0xD600⟩,
   ⟨.porta, 0x0000, 0x0000⟩, ⟨.portb, 0x0001, 0x0001⟩, ⟨.portc, 0x0002, 0x0002⟩]

/-- When an address map is one of R102's form: every port has one range, of its size and inside the 16-bit space, and the
ranges of one space do not overlap. -/
abbrev AddrMap.wf (m : AddrMap) : Prop :=
  (∀ p ∈ Port.all, ∃ e ∈ m, e.port = p) ∧
  (∀ e ∈ m, e.last + 1 = e.first + e.port.size ∧ e.last < 0x10000) ∧
  m.Pairwise fun a b =>
    a.port ≠ b.port ∧ (a.port.space = b.port.space → a.last < b.first ∨ b.last < a.first)

/-- Why a word is no transaction (R108, R342). -/
inductive DecodeError where
  /-- kind 7..15 -/
  | reservedKind
  /-- bits 27:24 not 0 -/
  | reservedBits
  /-- a host event with a non-zero address or data byte -/
  | hostOperand
  /-- an address no port of the space claims -/
  | unmappedAddress
  /-- a read of a write-only port or a write to a read-only port (20_memory.md R74) -/
  | missingDirection
deriving DecidableEq, Repr

/-- The fields of a trace word (R101). -/
def TraceWord.kindBits (w : TraceWord) : BitVec 4 := w.extractLsb' 28 4

/-- Bits 27:24, which must be 0 (R101). -/
def TraceWord.zeroBits (w : TraceWord) : BitVec 4 := w.extractLsb' 24 4

/-- Bits 23:8, the bus address (R101). -/
def TraceWord.addrBits (w : TraceWord) : BusAddr := w.extractLsb' 8 16

/-- Bits 7:0, the data byte (R101). -/
def TraceWord.dataBits (w : TraceWord) : Byte := w.extractLsb' 0 8

/-- Whether an address lies in a port's range (R102). -/
def PortRange.holds (e : PortRange) (sp : Space) (a : Nat) : Bool :=
  e.port.space == sp && (e.first ≤ a && a ≤ e.last) && a - e.first < e.port.size

/-- The port an address and a direction select, with the offset of R104; exact, no mirrors (R102). -/
def AddrMap.select (m : AddrMap) (sp : Space) (d : Dir) (a : Nat) : Option (Port × Nat) :=
  (m.find? fun e => e.holds sp a && e.port.has d).map fun e => (e.port, a - e.first)

/-- Why nothing is selected: the port lacks the direction, or no port claims the address (R108). -/
def AddrMap.whyNot (m : AddrMap) (sp : Space) (a : Nat) : DecodeError :=
  if m.any (fun e => e.holds sp a) then .missingDirection else .unmappedAddress

/-- The write transaction of a port (R107). -/
def writeOf (p : Port) (off : Nat) (v : Byte) : Option Instr :=
  match p with
  | .mcudata => some (.cwMcudata v)
  | .cram => some (.cwCram off v)
  | .vram0 => some (.cwVram0 off v)
  | .vram1 => some (.cwVram1 off v)
  | .vram2 => some (.cwVram2 off v)
  | .colscroll => some (.cwColscroll off v)
  | .spram => some (.cwSpram off v)
  | .palram => some (.cwPalram off v)
  | .priority => some (.cwPriority v)
  | .scroll => some (.cwScroll off v)
  | .colorbank => some (.cwColorbank off v)
  | .collclr => some (.cwCollclr v)
  | .gfxptr => some (.cwGfxptr off v)
  | .banksw => some (.cwBanksw v)
  | .alpinecode => some (.cwAlpinecode v)
  | .viden => some (.cwViden v)
  | .porta => some (.mwPorta v)
  | .portb => some (.mwPortb v)
  | .mcustatus | .coll | .gfxrom | .alpinein | .portc => none

/-- The read transaction of a port (R107). -/
def readOf (p : Port) (off : Nat) : Option Instr :=
  match p with
  | .mcudata => some .crMcudata
  | .mcustatus => some .crMcustatus
  | .vram0 => some (.crVram0 off)
  | .vram1 => some (.crVram1 off)
  | .vram2 => some (.crVram2 off)
  | .colscroll => some (.crColscroll off)
  | .spram => some (.crSpram off)
  | .coll => some (.crColl off)
  | .gfxrom => some .crGfxrom
  | .alpinein => some .crAlpinein
  | .porta => some .mrPorta
  | .portb => some .mrPortb
  | .portc => some .mrPortc
  | .cram | .palram | .priority | .scroll | .colorbank | .collclr | .gfxptr | .banksw | .alpinecode | .viden => none

/-- The bus transaction of an address in a space (R100, R102). -/
def decodeAccess (m : AddrMap) (sp : Space) (d : Dir) (a : Nat) (v : Byte) : Except DecodeError Instr :=
  match m.select sp d a with
  | none => .error (m.whyNot sp a)
  | some (p, off) =>
    match (match d with | .write => writeOf p off v | .read => readOf p off) with
    | some i => .ok i
    | none => .error .missingDirection

/-- A host event, whose address and data must be 0 (R101). -/
def decodeHost (w : TraceWord) (i : Instr) : Except DecodeError Instr :=
  if w.addrBits = 0 && w.dataBits = 0 then .ok i else .error .hostOperand

/-- The transaction a trace word stands for under an address map (R101, R107, R108). -/
def decode (m : AddrMap) (w : TraceWord) : Except DecodeError Instr :=
  if w.zeroBits ≠ 0 then .error .reservedBits else
  match w.kindBits.toNat with
  | 0 => decodeAccess m .cpu .write w.addrBits.toNat w.dataBits
  | 1 => decodeAccess m .cpu .read w.addrBits.toNat w.dataBits
  | 2 => decodeAccess m .mcu .write w.addrBits.toNat w.dataBits
  | 3 => decodeAccess m .mcu .read w.addrBits.toNat w.dataBits
  | 4 => decodeHost w .sync
  | 5 => decodeHost w .frame
  | 6 => decodeHost w .reset
  | _ => .error .reservedKind

/-- The transaction of a row's bits `w` under the default address map. A trace word is one word of 32 bits, so the bits
above `nbits` are 0. -/
def decodeTableWord (nbits w : Nat) : Option Instr :=
  match decode AddrMap.standard (BitVec.ofNat 32 (w % 2 ^ nbits)) with
  | .ok i => some i
  | .error _ => none

/-- The kind field of a kind (R101). -/
def Kind.bits : Kind → BitVec 4
  | .cw => 0
  | .cr => 1
  | .mw => 2
  | .mr => 3
  | .sync => 4
  | .frame => 5
  | .reset => 6

/-- `first(PORT) + off` (R110); 0 for a port the map lacks and for the host events. -/
def AddrMap.address (m : AddrMap) (p : Option Port) (off : Nat) : BusAddr :=
  match p with
  | none => 0
  | some p =>
    match m.find? (fun e => e.port == p) with
    | some e => BitVec.ofNat 16 (e.first + off)
    | none => 0

/-- A trace word from its fields (R101). -/
def TraceWord.pack (k : BitVec 4) (a : BusAddr) (v : Byte) : TraceWord := k ++ 0#4 ++ a ++ v

/-- The trace word of a transaction (R101, R110). -/
def encode (m : AddrMap) (i : Instr) : TraceWord :=
  TraceWord.pack i.kind.bits (m.address i.port i.offset) i.data

end Sys2Proof
end

