-- ==== Sys2Proof/Machine/Defaults.lean ====
section
/-! DEFINITION. The constants the source's document fixes and the values the spec takes for every field of `CFG`
(spec/00_scope.md R5). -/

namespace Sys2Proof

open Machine (Tab PerPlane)

/-- Bytes per character-RAM bank (R5, R20). -/
def Config.cramBankSize : Nat := 0x1800

/-- The distance between the bit planes of one bank, in bytes (R5, 90_conflicts.md C1). -/
def Config.planeStride : Nat := 0x800

/-- Whether a sprite slot is in the hardware hole, `CFG.HOLE` (R5, R214). -/
def Config.inHole (i : Nat) : Bool := 0x10 ≤ i && i ≤ 0x17

/-- `SPR_SX` of R5: `((xr + 13) mod 256) - 15`. -/
def Config.standardSx (xr : Nat) : Int := ((xr + 13) % 256 : Nat) - 15

/-- `SPR_SY` of R5: `240 - yr`. -/
def Config.standardSy (yr : Nat) : Int := 240 - (yr : Int)

/-- `ACTIVE_TEST` of R5: the raw y byte is below 240. -/
def Config.standardActive (yr : Nat) : Bool := yr < 240

/-- `PORTB_MAP` of R5. -/
def Config.standardPortb : Vector (Option PortBLine) 8 :=
  #v[some .intrq, some .readLatch, some .writeLatch, some .memWrite, some .memRead, some .addrLow, some .addrHigh, none]

/-- `CFG` with every value R5 takes. R5 gives `PROT_VARIANT` no default; `MCU` is the variant 95_test_vectors.md starts
from (DEDUCED, assumption log 7). No PROM entry and no ROM byte is supplied: all are free. -/
def Config.standard : Config where
  addrMap := AddrMap.standard
  visible := ⟨0, 255, 16, 239⟩
  planeWeight := ⟨0, 1, 2⟩
  rowBitOrder := .msbFirst
  scrollF1 := ⟨3, 1, -1⟩
  scrollF2 := ⟨8, 10, 12⟩
  sprSx := Tab.tabulate 8 Config.standardSx
  sprSy := Tab.tabulate 8 Config.standardSy
  sprMirrorX := 238
  sprMirrorY := 242
  activeTest := Tab.tabulate 8 Config.standardActive
  spcFudge := 2
  tilePropagate := false
  collNeedsSpritesOn := true
  objexMode := .ignored
  palWeight := ⟨0x21, 0x47, 0x97⟩
  prom := []
  gfxRom := []
  gfxRomLimit := 0x8000
  protVariant := .mcu
  portbMap := Config.standardPortb
  alpineTable := [(0x05, 0x18), (0x16, 0x08), (0x07, 0x00), (0x0C, 0x00), (0x0F, 0x00), (0x1D, 0x18)]
  statusReadSyncs := true

end Sys2Proof
end

