-- ==== Sys2Proof/Machine/Memory.lean ====
section
/-! DEFINITION. The byte memories of the block (spec/20_memory.md R71): lists of (offset, byte) pairs in one canonical
form. An unlisted offset reads as the reset contents 0 (spec/10_state.md R20, R23, R28, R30, R33; D31). -/

namespace Sys2Proof.Machine

/-- A byte memory: the bytes that differ from the reset contents, by rising offset. -/
abbrev Memory := List Host.Cell

/-- What an unlisted offset reads as: the reset contents of every RAM (R47, R370). -/
def Memory.unlisted : Byte := 0

/-- The byte at an offset. -/
def Memory.read : Memory → Nat → Byte
  | [], _ => Memory.unlisted
  | (k, w) :: m, a => if k = a then w else Memory.read m a

/-- The memory with the byte at offset `a` replaced; the canonical form is kept. -/
def Memory.write : Memory → Nat → Byte → Memory
  | [], a, v => if v = Memory.unlisted then [] else [(a, v)]
  | (k, w) :: m, a, v =>
    if a < k then (if v = Memory.unlisted then (k, w) :: m else (a, v) :: (k, w) :: m)
    else if a = k then (if v = Memory.unlisted then m else (a, v) :: m)
    else (k, w) :: Memory.write m a v

/-- The canonical form: offsets strictly rising, and no entry equal to what an unlisted offset reads as. -/
abbrev Memory.wf (m : Memory) : Prop :=
  m.Pairwise (fun c d => c.1 < d.1) ∧ ∀ c ∈ m, c.2 ≠ Memory.unlisted

/-- Every listed offset lies inside a RAM of `size` bytes (R71). -/
abbrev Memory.within (m : Memory) (size : Nat) : Prop := ∀ c ∈ m, c.1 < size

/-- The byte of a small register array; an index outside it reads as 0 (unreachable: R72). -/
def regGet {n : Nat} (r : Vector Byte n) (i : Nat) : Byte := r[i]?.getD 0

/-- The register array with byte `i` replaced. -/
def regSet {n : Nat} (r : Vector Byte n) (i : Nat) (v : Byte) : Vector Byte n := r.setIfInBounds i v

end Sys2Proof.Machine
end

