-- ==== Sys2Proof/Machine/PromDecode.lean ====
section
/-! DEFINITION. `PromDecode` (spec/44_compositor.md R230, R231): the draw-order table from the priority PROM. -/

namespace Sys2Proof.Machine

/-- One row `DRAWORDER[c][0..3]`: the layer drawn first to the layer drawn last (R31). -/
structure DrawRow where
  step0 : Layer
  step1 : Layer
  step2 : Layer
  step3 : Layer
deriving DecidableEq, Repr

/-- The four layers in the order they are drawn (R31). -/
def DrawRow.layers (r : DrawRow) : List Layer := [r.step0, r.step1, r.step2, r.step3]

/-- `CFG.PROM[a]`: the entry the host has supplied, else a free value (U5). -/
def promEntry (cfg : Config) (a : Nat) : BitVec 4 := (cfg.prom[a]?).getD (Config.freePromEntry a)

/-- The layer the PROM names for code `c` and exclusion mask `mask` (R230): entry `16 * (c & 0x0F) + mask`, its high half
for codes 16..31 and its low half for codes 0..15. -/
def promLayer (cfg : Config) (c : Nat) (mask : BitVec 4) : Layer :=
  let d := promEntry cfg (16 * (c % 16) + mask.toNat)
  let d := if c.testBit 4 then d >>> 2 else d
  Layer.ofCode (d.extractLsb' 0 2)

/-- The mask with a layer's bit added (R230). -/
def maskWith (mask : BitVec 4) (l : Layer) : BitVec 4 := mask ||| BitVec.twoPow 4 l.number

/-- One row of the decode: steps 3 down to 0, each resolved layer joining the exclusion mask (R230). -/
def promRow (cfg : Config) (c : Nat) : DrawRow :=
  let l3 := promLayer cfg c 0
  let m1 := maskWith 0 l3
  let l2 := promLayer cfg c m1
  let m2 := maskWith m1 l2
  let l1 := promLayer cfg c m2
  let m3 := maskWith m2 l1
  let l0 := promLayer cfg c m3
  { step0 := l0, step1 := l1, step2 := l2, step3 := l3 }

/-- `PromDecode` (R230): a row for each priority code 0..31. -/
def promDecode (cfg : Config) : Tab DrawRow 5 := Tab.tabulate 5 (promRow cfg)

end Sys2Proof.Machine
end

