-- ==== Sys2Proof/Machine/State.lean ====
section
/-! DEFINITION. The state of TaitoSJ-core (spec/10_state.md), the configuration it runs under, the inputs the host has laid
out and the outputs of the last event, with the ways a step can stop and the state after RESET. -/

namespace Sys2Proof.Machine

/-- The ways the machine can stop with a fault: none. The block has no synchronous exception (spec/60_exceptions.md
R340), so no meaning can answer a fault. -/
inductive Fault where
deriving DecidableEq, Repr

/-- Why a step is refused: the inputs the spec puts outside the model (spec/60_exceptions.md R342). Every refusal is
safe: the model stops where the spec gives no step. -/
inductive Refusal where
  /-- raised by exec's arm of an instruction that has no meaning yet; safe -/
  | notModelled (mnemonic : String)
  /-- raised by the fetch when no transaction is left in the trace: the execution has ended (R10); safe -/
  | noEvent
  /-- raised by the fetch for a word that is no transaction (R108); safe -/
  | notDecoded (why : DecodeError)
  /-- raised by an MCU transaction in a variant without an MCU, and by an alpine transaction in a variant other than
  ALPINE (R290, R108); safe -/
  | absentInVariant
  /-- raised by FRAME when `VIDEN[2]` is set and `CFG.OBJEX_MODE` is refuse (R240, R388); safe -/
  | objexSet
deriving DecidableEq, Repr

/-- A deferred handshake event (R42, R296 to R299). -/
inductive Deferred where
  /-- `EvCpuData(v)` (R296) -/
  | cpuData (v : Byte)
  /-- `EvCpuTook` (R297) -/
  | cpuTook
  /-- `EvMcuTook` (R298) -/
  | mcuTook
  /-- `EvMcuData(v)` (R299) -/
  | mcuData (v : Byte)
deriving DecidableEq, Repr

/-- A colour of the palette, each gun 0..255 under the default weights (R233). -/
structure Rgb where
  r : Nat
  g : Nat
  b : Nat
deriving DecidableEq, Repr

/-- What one FRAME puts out: the output surface, `none` at a pixel the block does not write, and the colour of each
palette index when the FRAME ends (R235). -/
structure FrameOut where
  surface : Tab (Option PalIdx) 16
  colours : Tab Rgb 6
deriving DecidableEq, Repr

/-- The outputs of one event (R44, R73, R75). -/
structure Outputs where
  /-- the byte a read returned -/
  data : Option Byte
  /-- the `BusWrite(addr, v)` calls, in order (R306) -/
  busWrites : List (BusAddr × Byte)
  /-- the addresses of the `BusRead(addr)` calls, in order (R307) -/
  busReads : List BusAddr
  /-- what a FRAME put out (R235) -/
  frame : Option FrameOut
deriving DecidableEq, Repr

/-- No output. -/
def Outputs.none : Outputs := { data := Option.none, busWrites := [], busReads := [], frame := Option.none }

/-- The state of the block and of the model around it. -/
structure State where
  /-- `CFG` (R5), fixed for a session (R44) -/
  cfg : Config
  /-- `CRAM[0..0x2FFF]` (R20) -/
  cram : Memory
  /-- `TILE_DIRTY[b][0..255]` (R21) -/
  tileDirty : PerBank (Tab Bool 8)
  /-- `SPAT_DIRTY[b][0..63]` (R21) -/
  spatDirty : PerBank (Tab Bool 6)
  /-- `TILE_PIX[b][t][r][x]` at entry `64 t + 8 r + x` (R22) -/
  tilePix : PerBank (Tab Pen 14)
  /-- `SPAT_PIX[b][s][r][x]` at entry `256 s + 16 r + x` (R22) -/
  spatPix : PerBank (Tab Pen 14)
  /-- `VRAM[n][0..0x3FF]` (R23) -/
  vram : PerPlane Memory
  /-- `CELL_DIRTY[n][0..0x3FF]` (R24) -/
  cellDirty : PerPlane (Tab Bool 10)
  /-- `PF[n][y][x]` (R25) -/
  pf : PerPlane (Tab PalIdx 16)
  /-- `PSCR[n][y][x]` (R26) -/
  pscr : PerPlane (Tab PalIdx 16)
  /-- `SCROLL[0..5]` (R27) -/
  scroll : Vector Byte 6
  /-- `COLSCROLL[0..0x5F]` (R28) -/
  colscroll : Memory
  /-- `COLORBANK[0..1]` (R29) -/
  colorbank : Vector Byte 2
  /-- `PALRAM[0..0x7F]` (R30) -/
  palram : Memory
  /-- `DRAWORDER[c]` (R31) -/
  draworder : Tab DrawRow 5
  /-- `PRIORITY` (R32) -/
  priority : Byte
  /-- `SPRAM[0..0x7F]` (R33) -/
  spram : Memory
  /-- `COLL[0..3]` (R34) -/
  coll : Vector Byte 4
  /-- `VIDEN` (R35) -/
  viden : Byte
  /-- `BANKSW` (R36) -/
  banksw : Byte
  /-- `GFXPTR[0..1]` (R37) -/
  gfxptr : Vector Byte 2
  /-- `ZREADY` (R38) -/
  zready : Bool
  /-- `ZACCEPT` (R38) -/
  zaccept : Bool
  /-- `FROMZ80` (R39) -/
  fromz80 : Byte
  /-- `TOZ80` (R39) -/
  toz80 : Byte
  /-- `PORTA_IN` (R39) -/
  portaIn : Byte
  /-- `PORTA_OUT` (R39) -/
  portaOut : Byte
  /-- `ADDR16` (R40) -/
  addr16 : BusAddr
  /-- `MCU_IRQ` (R41) -/
  mcuIrq : Bool
  /-- `EVQ`, oldest first (R42) -/
  evq : List Deferred
  /-- `PROT_VALUE` (R43) -/
  protValue : Byte
  /-- the model's own: the transactions still to be issued, oldest first (R10; assumption log 1) -/
  trace : List TraceWord
  /-- the model's own: the bytes the host has laid out for the next `BusRead`s (R8; assumption log 5) -/
  busIn : List Byte
  /-- the model's own: the bytes the host has laid out for the next `InPort`s (R8; assumption log 6) -/
  portIn : List Byte
  /-- the model's own: how many free values have been drawn (R9; assumption log 5) -/
  draws : Nat
  /-- the model's own: the processor whose event came last, with no SYNC since (R83 (a); assumption log 8) -/
  lastProc : Option Agent
  /-- the model's own: the run has left out a SYNC that R83 (a) demands (R342, R9; assumption log 8) -/
  marked : Bool
  /-- the model's own: the outputs of the last event (R44; assumption log 9) -/
  out : Outputs
deriving DecidableEq, Repr

/-- The state RESET creates under a configuration (R370, R47), with nothing laid out by the host. -/
def State.init (cfg : Config) : State where
  cfg := cfg
  cram := []
  tileDirty := ⟨Tab.fill true 8, Tab.fill true 8⟩
  spatDirty := ⟨Tab.fill true 6, Tab.fill true 6⟩
  tilePix := ⟨Tab.fill 0 14, Tab.fill 0 14⟩
  spatPix := ⟨Tab.fill 0 14, Tab.fill 0 14⟩
  vram := ⟨[], [], []⟩
  cellDirty := ⟨Tab.fill true 10, Tab.fill true 10, Tab.fill true 10⟩
  pf := ⟨Tab.fill 0 16, Tab.fill 0 16, Tab.fill 0 16⟩
  pscr := ⟨Tab.fill 0 16, Tab.fill 0 16, Tab.fill 0 16⟩
  scroll := Vector.replicate 6 0
  colscroll := []
  colorbank := Vector.replicate 2 0
  palram := []
  draworder := promDecode cfg
  priority := 0
  spram := []
  coll := Vector.replicate 4 0
  viden := 0
  banksw := 0
  gfxptr := Vector.replicate 2 0
  zready := false
  zaccept := true
  fromz80 := 0
  toz80 := 0
  portaIn := 0
  portaOut := 0
  addr16 := 0
  mcuIrq := false
  evq := []
  protValue := 0
  trace := []
  busIn := []
  portIn := []
  draws := 0
  lastProc := none
  marked := false
  out := Outputs.none

/-- The machine right after reset (R370) under the spec's configuration (R5). -/
def State.reset : State := State.init Config.standard

end Sys2Proof.Machine
end

