-- ==== Sys2Proof/Machine/Operands.lean ====
section
/-! DEFINITION. The fields of the register bytes (spec/30_encoding.md R105): `COLORBANK` (10_state.md R29), sprite bytes
(R33), `VIDEN` (R35), `BANKSW` (R36), `PRIORITY` (R32), the scroll registers (R27, R28), the graphics-ROM pointer (R76)
and the external `RomRead` (00_scope.md R8). -/

namespace Sys2Proof.Machine

/-- `GFX`, global flip x: `VIDEN[0]` (R35). -/
def State.gfx (s : State) : Bool := s.viden.getLsbD 0

/-- `GFY`, global flip y: `VIDEN[1]` (R35). -/
def State.gfy (s : State) : Bool := s.viden.getLsbD 1

/-- `OBJEX`: `VIDEN[2]` (R35). -/
def State.objex (s : State) : Bool := s.viden.getLsbD 2

/-- `PEN[n]`, the enable of plane n: `VIDEN[4 + n]` (R35). -/
def State.pen (s : State) (n : Plane) : Bool := s.viden.getLsbD (4 + n.number)

/-- `SEN`, the sprite enable: `VIDEN[7]` (R35). -/
def State.sen (s : State) : Bool := s.viden.getLsbD 7

/-- `PCOL[n]`, the colour code of plane n (R29). -/
def State.pcol (s : State) : Plane → Colour
  | .front => (regGet s.colorbank 0).extractLsb' 0 3
  | .middle => (regGet s.colorbank 0).extractLsb' 4 3
  | .back => (regGet s.colorbank 1).extractLsb' 0 3

/-- `PBANK[n]`, the character bank of plane n (R29). -/
def State.pbank (s : State) : Plane → Bank
  | .front => .ofBit ((regGet s.colorbank 0).getLsbD 3)
  | .middle => .ofBit ((regGet s.colorbank 0).getLsbD 7)
  | .back => .ofBit ((regGet s.colorbank 1).getLsbD 3)

/-- `SCOLB`, the sprite colour bank: `COLORBANK[1][5:4]` (R29). -/
def State.scolb (s : State) : BitVec 2 := (regGet s.colorbank 1).extractLsb' 4 2

/-- The priority code in use: `PRIORITY & 0x1F` (R32, R142). -/
def State.priorityCode (s : State) : Nat := s.priority.toNat % 32

/-- The ROM bank-select output: `BANKSW[7]` (R36, R152). -/
def State.bankSelect (s : State) : Bool := s.banksw.getLsbD 7

/-- The horizontal scroll byte of plane n: `SCROLL[2n]` (R27). -/
def State.scrollX (s : State) (n : Plane) : Byte := regGet s.scroll (2 * n.number)

/-- The vertical scroll byte of plane n: `SCROLL[2n + 1]` (R27). -/
def State.scrollY (s : State) (n : Plane) : Byte := regGet s.scroll (2 * n.number + 1)

/-- The offset of column c of plane n: `COLSCROLL[32n + c]` (R28). -/
def State.columnOffset (s : State) (n : Plane) (c : Nat) : Byte := s.colscroll.read (32 * n.number + c)

/-- Byte k of sprite slot i (R33). -/
def State.spriteByte (s : State) (i k : Nat) : Byte := s.spram.read (4 * i + k)

/-- `XR`, the raw x byte of slot i (R33). -/
def State.xr (s : State) (i : Nat) : Byte := s.spriteByte i 0

/-- `YR`, the raw y byte of slot i (R33). -/
def State.yr (s : State) (i : Nat) : Byte := s.spriteByte i 1

/-- `SFX`, the horizontal flip of slot i (R33). -/
def State.sfx (s : State) (i : Nat) : Bool := (s.spriteByte i 2).getLsbD 0

/-- `SFY`, the vertical flip of slot i (R33). -/
def State.sfy (s : State) (i : Nat) : Bool := (s.spriteByte i 2).getLsbD 1

/-- `SCB`, the least significant colour bit of slot i (R33). -/
def State.scb (s : State) (i : Nat) : Bool := (s.spriteByte i 2).getLsbD 2

/-- `SCODE`, the pattern of slot i, 0..63 (R33). -/
def State.scode (s : State) (i : Nat) : Nat := (s.spriteByte i 3).toNat % 64

/-- `SBANK`, the character bank of slot i (R33). -/
def State.sbank (s : State) (i : Nat) : Bank := .ofBit ((s.spriteByte i 3).getLsbD 6)

/-- The colour code of slot i: `2 * SCOLB + SCB` (R213). -/
def State.spriteColour (s : State) (i : Nat) : Colour := s.scolb ++ BitVec.ofBool (s.scb i)

/-- The palette index of a colour and a pen: `8 * colour + pen` (R12, R191). -/
def palIdx (k : Colour) (p : Pen) : PalIdx := k ++ p

/-- The graphics-ROM pointer `{GFXPTR[1], GFXPTR[0]}` (R37, R76). -/
def State.romPointer (s : State) : BitVec 16 := regGet s.gfxptr 1 ++ regGet s.gfxptr 0

/-- `RomRead(a)` (R8): the byte the host has supplied, else the free byte of the address (U9). -/
def romRead (cfg : Config) (a : Nat) : Byte := (cfg.gfxRom[a]?).getD (Config.freeRomByte a)

end Sys2Proof.Machine
end

