-- ==== Sys2Proof/Machine/Flags.lean ====
section
/-! DEFINITION. The flags: dirty bits (spec/10_state.md R21, R24), collision bits (R34, 45_collision.md R262, R264) and the
handshake flags as port C and the status port show them (46_mcu_bridge.md R293, R295, R309). -/

namespace Sys2Proof.Machine

/-- The byte with bit `i` set (R262, R264). -/
def orBit (d : Byte) (i : Nat) : Byte := d ||| BitVec.twoPow 8 i

/-- The dirty set with the bit of every `i` that satisfies `f` set. -/
def markWhere {n : Nat} (d : Tab Bool n) (f : Nat → Bool) : Tab Bool n := Tab.tabulate n fun i => d.get i || f i

/-- The bank of a character-RAM offset (R130). -/
def bankOf (off : Nat) : Bank := if off < Config.cramBankSize then .bank0 else .bank1

/-- The tile that owns a character-RAM offset: `(off div 8) & 0xFF` (R72, R130). -/
def tileOf (off : Nat) : Nat := off / 8 % 256

/-- The sprite pattern that owns a character-RAM offset: `(off div 32) & 0x3F` (R72, R130). -/
def spatOf (off : Nat) : Nat := off / 32 % 64

/-- `TILE_DIRTY[b][t]` (R21). -/
def State.tileIsDirty (s : State) (b : Bank) (t : Nat) : Bool := (s.tileDirty.get b).get t

/-- `SPAT_DIRTY[b][p]` (R21). -/
def State.spatIsDirty (s : State) (b : Bank) (p : Nat) : Bool := (s.spatDirty.get b).get p

/-- `CELL_DIRTY[n][c]` (R24). -/
def State.cellIsDirty (s : State) (n : Plane) (c : Nat) : Bool := (s.cellDirty.get n).get c

/-- Mark the tile and the pattern that own a character-RAM offset (R130). -/
def State.markChar (s : State) (off : Nat) : State :=
  let b := bankOf off
  { s with
    tileDirty := s.tileDirty.set b ((s.tileDirty.get b).set (tileOf off) true)
    spatDirty := s.spatDirty.set b ((s.spatDirty.get b).set (spatOf off) true) }

/-- Mark one cell of a plane (R131). -/
def State.markCell (s : State) (n : Plane) (c : Nat) : State :=
  { s with cellDirty := s.cellDirty.set n ((s.cellDirty.get n).set c true) }

/-- Mark every cell of every plane (R144, R153). -/
def State.markAllCells (s : State) : State :=
  { s with cellDirty := .ofFn fun _ => Tab.fill true 10 }

/-- `SetSpriteBit(i)` (R262): register `min(i >> 3, 2)`, bit `i & 7`. -/
def setSpriteBit (coll : Vector Byte 4) (i : Nat) : Vector Byte 4 :=
  let r := min (i / 8) 2
  regSet coll r (orBit (regGet coll r) (i % 8))

/-- Set bit n of collision register 3 (R264). -/
def setPlaneBit (coll : Vector Byte 4) (n : Plane) : Vector Byte 4 :=
  regSet coll 3 (orBit (regGet coll 3) n.number)

/-- The collision bit of a sprite slot as the CPU reads it (R267). -/
def spriteBit (coll : Vector Byte 4) (i : Nat) : Bool := (regGet coll (min (i / 8) 2)).getLsbD (i % 8)

/-- The collision bit of a plane as the CPU reads it (R267). -/
def planeBit (coll : Vector Byte 4) (n : Plane) : Bool := (regGet coll 3).getLsbD n.number

/-- What port C shows: `ZREADY | (ZACCEPT << 1)` (R309). -/
def State.portC (s : State) : Byte := 0#6 ++ BitVec.ofBool s.zaccept ++ BitVec.ofBool s.zready

/-- What the CPU's status port shows: `0xFF ^ (ZREADY | (ZACCEPT << 1))` (R293). -/
def State.status (s : State) : Byte := 0xFF ^^^ s.portC

end Sys2Proof.Machine
end

