-- ==== Sys2Proof/Machine/Ops.lean ====
section
/-! DEFINITION. The operations the meanings share: outputs, draws, deferred events and their drain
(spec/20_memory.md R82, R83; spec/46_mcu_bridge.md R296 to R299), the protection variant's gate (R290), the creation of
all state at RESET (spec/70_reset_and_hazards.md R370), and the marking of a run that leaves out a SYNC (R83 (a)).
The block takes no exception and returns from none (spec/60_exceptions.md R340, R346, R347): its one interrupt line is
raised by `applyDeferred` and acknowledged by `State.ackIrq`. -/

namespace Sys2Proof.Machine

/-- The state with the outputs of an event. -/
def State.withOut (s : State) (o : Outputs) : State := { s with out := o }

/-- The state after an event that puts nothing out. -/
def State.quiet (s : State) : State := s.withOut Outputs.none

/-- The state after a read that returned `r`. -/
def State.respond (s : State) (r : Byte) : State := s.withOut { Outputs.none with data := some r }

/-- `defer E` (R7, R82): append an event to `EVQ`. -/
def State.defer (s : State) (e : Deferred) : State := { s with evq := s.evq ++ [e] }

/-- The byte of the next `BusRead` (R8, R9): the next one the host has laid out, else a free value. -/
def State.busByte (s : State) : Byte :=
  match s.busIn with
  | b :: _ => b
  | [] => Config.freeBusByte s.draws

/-- The state after a `BusRead` has drawn its byte. -/
def State.busDrawn (s : State) : State :=
  match s.busIn with
  | _ :: rest => { s with busIn := rest }
  | [] => { s with draws := s.draws + 1 }

/-- The byte of the next `InPort` (R8, R9): the next one the host has laid out, else a free value. -/
def State.portByte (s : State) : Byte :=
  match s.portIn with
  | b :: _ => b
  | [] => Config.freePortByte s.draws

/-- The state after an `InPort` has drawn its byte. -/
def State.portDrawn (s : State) : State :=
  match s.portIn with
  | _ :: rest => { s with portIn := rest }
  | [] => { s with draws := s.draws + 1 }

/-- Apply one deferred event (R296 to R299); `EvCpuData` raises the interrupt line (R344). -/
def applyDeferred (s : State) : Deferred → State
  | .cpuData v => { s with zready := true, mcuIrq := true, fromz80 := v }
  | .cpuTook => { s with zaccept := true }
  | .mcuTook => { s with zready := false }
  | .mcuData v => { s with toz80 := v, zaccept := false }

/-- The fence (R83): apply the events of `EVQ` in the order they were appended; no event is then owed a SYNC. -/
def State.drain (s : State) : State :=
  { s.evq.foldl applyDeferred s with evq := [], lastProc := none }

/-- The acknowledge of the interrupt line (R303, R344). -/
def State.ackIrq (s : State) : State := { s with mcuIrq := false }

/-- A transaction that exists only in one protection variant (R290). -/
def inVariant (s : State) (v : ProtVariant) (t : State) : Host.Outcome State Fault Refusal :=
  if s.cfg.protVariant = v then .next t else .refused .absentInVariant

/-- Create all state (R370): nothing of the earlier state survives. The configuration and what the host has laid out are
not state of the block and stay (R44; assumption log 12). -/
def State.recreate (s : State) : State :=
  { State.init s.cfg with trace := s.trace, busIn := s.busIn, portIn := s.portIn, draws := s.draws }

/-- The processor of an agent, if it is one (R10). -/
def processorOf : Agent → Option Agent
  | .cpu => some .cpu
  | .mcu => some .mcu
  | .host => none

/-- Record that a transaction is issued: an event of one processor after an event of the other with no SYNC between
marks the run (R83 (a), R342, R9; assumption log 8). -/
def State.noteAgent (s : State) (a : Agent) : State :=
  match processorOf a with
  | none => s
  | some p => { s with lastProc := some p, marked := s.marked || (s.lastProc.isSome && s.lastProc != some p) }

end Sys2Proof.Machine
end

