-- ==== Sys2Proof/Machine/Bridge.lean ====
section
/-! DEFINITION. ProtectionMCUBridge (spec/46_mcu_bridge.md R290 to R316): the CPU's and the MCU's side of the handshake, the
control lines of port B, the alpine lookup and the stubs. -/

namespace Sys2Proof.Machine

/-- `CW.MCUDATA v`: defer `EvCpuData(v)` (R291); the stub accepts and ignores it (R316). -/
def execCwMcudata (v : Byte) (s : State) : Host.Outcome State Fault Refusal :=
  .next (if s.cfg.protVariant = .mcu then (s.defer (.cpuData v)).quiet else s.quiet)

/-- `CR.MCUDATA`: return `TOZ80` and defer `EvCpuTook` (R292); the stub returns 0x00 (R316). -/
def execCrMcudata (s : State) : Host.Outcome State Fault Refusal :=
  .next (if s.cfg.protVariant = .mcu then (s.defer .cpuTook).respond s.toz80 else s.respond 0x00)

/-- `CR.MCUSTATUS`: sample the flags, then drain when `CFG.STATUS_READ_SYNCS` (R293, R294); the stub returns 0xFF
(R316). -/
def execCrMcustatus (s : State) : Host.Outcome State Fault Refusal :=
  .next (if s.cfg.protVariant = .mcu then
      (if s.cfg.statusReadSyncs then s.drain else s).respond s.status
    else s.respond 0xFF)

/-- `MR.PORTA`: the input latch (R300). -/
def execMrPorta (s : State) : Host.Outcome State Fault Refusal :=
  inVariant s .mcu (s.respond s.portaIn)

/-- `MW.PORTA v`: the output latch (R310). -/
def execMwPorta (v : Byte) (s : State) : Host.Outcome State Fault Refusal :=
  inVariant s .mcu { s.quiet with portaOut := v }

/-- Line 1, the read latch (R303). -/
def State.readLatch (s : State) : State :=
  { (s.defer .mcuTook).ackIrq with portaIn := s.fromz80 }

/-- Line 2, the write latch (R304). -/
def State.writeLatch (s : State) : State := s.defer (.mcuData s.portaOut)

/-- The address after an indirect write: the low byte incremented without carry (R306). -/
def addrNext (a : BusAddr) : BusAddr := a.extractLsb' 8 8 ++ (a.extractLsb' 0 8 + 1)

/-- Line 3, the indirect write: `BusWrite(ADDR16, PORTA_OUT)`, then the low byte of the address increments (R306). -/
def State.memWrite (s : State) : State :=
  { s with
    addr16 := addrNext s.addr16
    out := { s.out with busWrites := s.out.busWrites ++ [(s.addr16, s.portaOut)] } }

/-- Line 4, the indirect read: `PORTA_IN <- BusRead(ADDR16)` (R307). -/
def State.memRead (s : State) : State :=
  { s.busDrawn with
    portaIn := s.busByte
    out := { s.out with busReads := s.out.busReads ++ [s.addr16] } }

/-- Line 5, load the low byte of the address (R311). -/
def State.loadLow (s : State) : State := { s with addr16 := s.addr16.extractLsb' 8 8 ++ s.portaOut }

/-- Line 6, load the high byte of the address (R311). -/
def State.loadHigh (s : State) : State := { s with addr16 := s.portaOut ++ s.addr16.extractLsb' 0 8 }

/-- The action of a control line; line 0 is an unimplemented no-op (R302 to R311). -/
def lineAction (s : State) : PortBLine → State
  | .intrq => s
  | .readLatch => s.readLatch
  | .writeLatch => s.writeLatch
  | .memWrite => s.memWrite
  | .memRead => s.memRead
  | .addrLow => s.loadLow
  | .addrHigh => s.loadHigh

/-- What bit k of a byte written to port B does: its line acts when the bit is 0 (R106, R301). -/
def portBit (v : Byte) (s : State) (k : Nat) : State :=
  match (s.cfg.portbMap[k]?).join with
  | none => s
  | some l => if v.getLsbD k then s else lineAction s l

/-- The bits of port B in ascending order (R301). -/
def portBits : List Nat := [0, 1, 2, 3, 4, 5, 6, 7]

/-- `MW.PORTB v`: every asserted line acts, in ascending bit order; the byte itself is not stored (R301). -/
def execMwPortb (v : Byte) (s : State) : Host.Outcome State Fault Refusal :=
  inVariant s .mcu (portBits.foldl (portBit v) s.quiet)

/-- `MR.PORTB`: 0xFF (R308). -/
def execMrPortb (s : State) : Host.Outcome State Fault Refusal :=
  inVariant s .mcu (s.respond 0xFF)

/-- `MR.PORTC`: the flags uninverted (R309). -/
def execMrPortc (s : State) : Host.Outcome State Fault Refusal :=
  inVariant s .mcu (s.respond s.portC)

/-- The value a magic code selects; an unmatched code passes through (R313). -/
def alpineValue (cfg : Config) (v : Byte) : Byte :=
  match cfg.alpineTable.find? (fun row => row.1 == v) with
  | some row => row.2
  | none => v

/-- `CW.ALPINECODE v` (R313). -/
def execCwAlpinecode (v : Byte) (s : State) : Host.Outcome State Fault Refusal :=
  inVariant s .alpine { s.quiet with protValue := alpineValue s.cfg v }

/-- `CR.ALPINEIN`: `InPort() | PROT_VALUE` (R314). -/
def execCrAlpinein (s : State) : Host.Outcome State Fault Refusal :=
  inVariant s .alpine (s.portDrawn.respond (s.portByte ||| s.protValue))

end Sys2Proof.Machine
end

