-- ==== Sys2Proof/Machine/TileCache.lean ====
section
/-! DEFINITION. TileCache (spec/41_tilecache.md R170 to R176): the decode of tiles and sprite patterns and step 1 of FRAME.
The loops over ids and pixels are written per pixel (assumption log 20). -/

namespace Sys2Proof.Machine

/-- The bit of a row byte that column x takes (R5 `ROW_BIT_ORDER`, R171). -/
def rowBit (o : RowBitOrder) (x : Nat) : Nat :=
  match o with
  | .msbFirst => 7 - x
  | .lsbFirst => x

/-- The pen of column x of the row byte at offset `base` of each plane (R171): the planes lie `PLANE_STRIDE` apart and
`PLANE_WEIGHT` says which carries which pen bit. -/
def unpackPen (cfg : Config) (cram : Memory) (base x : Nat) : Pen :=
  let k := rowBit cfg.rowBitOrder x
  let bit := fun (plane : Fin 3) => (cram.read (base + Config.planeStride * plane.val)).getLsbD k
  BitVec.ofBool (bit cfg.planeWeight.bit2) ++ BitVec.ofBool (bit cfg.planeWeight.bit1)
    ++ BitVec.ofBool (bit cfg.planeWeight.bit0)

/-- `UnpackTile(b, t)[r][x]` (R171). -/
def unpackTile (cfg : Config) (cram : Memory) (b : Bank) (t r x : Nat) : Pen :=
  unpackPen cfg cram (Config.cramBankSize * b.number + 8 * t + r) x

/-- The byte of a 32-byte pattern that holds row r, column x (R172): four quarters, top-left, top-right, bottom-left,
bottom-right. -/
def spatByte (r x : Nat) : Nat := r % 8 + 8 * (x / 8) + 16 * (r / 8)

/-- `UnpackSpat(b, p)[r][x]` (R172). -/
def unpackSpat (cfg : Config) (cram : Memory) (b : Bank) (p r x : Nat) : Pen :=
  unpackPen cfg cram (Config.cramBankSize * b.number + 32 * p + spatByte r x) (x % 8)

/-- `TILE_PIX[b][t][r][x]` (R22). -/
def State.tilePen (s : State) (b : Bank) (t r x : Nat) : Pen := (s.tilePix.get b).get (64 * t + 8 * r + x)

/-- `SPAT_PIX[b][p][r][x]` (R22). -/
def State.spatPen (s : State) (b : Bank) (p r x : Nat) : Pen := (s.spatPix.get b).get (256 * p + 16 * r + x)

/-- `TILE_PIX[b]` after the decode step: dirty tiles are unpacked, the others kept (R170). -/
def State.decodedTiles (s : State) (b : Bank) : Tab Pen 14 :=
  Tab.tabulate 14 fun i =>
    if s.tileIsDirty b (i / 64) then unpackTile s.cfg s.cram b (i / 64) (i / 8 % 8) (i % 8)
    else (s.tilePix.get b).get i

/-- `SPAT_PIX[b]` after the decode step: dirty patterns are unpacked, the others kept (R170). -/
def State.decodedSpats (s : State) (b : Bank) : Tab Pen 14 :=
  Tab.tabulate 14 fun i =>
    if s.spatIsDirty b (i / 256) then unpackSpat s.cfg s.cram b (i / 256) (i / 16 % 16) (i % 16)
    else (s.spatPix.get b).get i

/-- `CELL_DIRTY[n]` after the decode step: under `TILE_PROPAGATE` the cells that show a re-decoded tile under the plane's
current bank become dirty (R170, R176). -/
def State.propagated (s : State) (n : Plane) : Tab Bool 10 :=
  if s.cfg.tilePropagate then
    markWhere (s.cellDirty.get n) fun c => s.tileIsDirty (s.pbank n) ((s.vram.get n).read c).toNat
  else s.cellDirty.get n

/-- `DecodeDirty`, step 1 of FRAME (R170). -/
def State.decodeDirty (s : State) : State :=
  { s with
    tilePix := .ofFn s.decodedTiles
    spatPix := .ofFn s.decodedSpats
    tileDirty := ⟨Tab.fill false 8, Tab.fill false 8⟩
    spatDirty := ⟨Tab.fill false 6, Tab.fill false 6⟩
    cellDirty := .ofFn s.propagated }

end Sys2Proof.Machine
end

