-- ==== Sys2Proof/Machine/Sprites.lean ====
section
/-! DEFINITION. SpriteRenderer (spec/43_sprites.md R210 to R214): the sprite scan, the flipped patterns and the sprite draw,
written per pixel (assumption log 20). -/

namespace Sys2Proof.Machine

/-- `ON[i]` (R210): the slot is not in the hole and its raw y byte passes `CFG.ACTIVE_TEST`. -/
def State.slotOn (s : State) (i : Nat) : Bool :=
  !Config.inHole i && s.cfg.activeTest.get (s.yr i).toNat

/-- `UX[i]` (R210). -/
def State.slotUx (s : State) (i : Nat) : Int := s.cfg.sprSx.get (s.xr i).toNat

/-- `UY[i]` (R210). -/
def State.slotUy (s : State) (i : Nat) : Int := s.cfg.sprSy.get (s.yr i).toNat

/-- `BX[i]` (R210). -/
def State.slotBx (s : State) (i : Nat) : Int :=
  if s.gfx then s.cfg.sprMirrorX - s.slotUx i else s.slotUx i

/-- `BY[i]` (R210). -/
def State.slotBy (s : State) (i : Nat) : Int :=
  if s.gfy then s.cfg.sprMirrorY - s.slotUy i else s.slotUy i

/-- One active slot as `SpriteScan` leaves it, with the slot's fields (R210, R33). -/
structure Sprite where
  slot : Nat
  ux : Int
  uy : Int
  bx : Int
  by' : Int
  sfx : Bool
  sfy : Bool
  bank : Bank
  code : Nat
  colour : Colour
deriving DecidableEq, Repr

/-- The entry of slot i (R210). -/
def State.sprite (s : State) (i : Nat) : Sprite where
  slot := i
  ux := s.slotUx i
  uy := s.slotUy i
  bx := s.slotBx i
  by' := s.slotBy i
  sfx := s.sfx i
  sfy := s.sfy i
  bank := s.sbank i
  code := s.scode i
  colour := s.spriteColour i

/-- The slots with `ON[i] = 1`, in ascending order (R210). -/
def State.liveSlots (s : State) : List Nat := (List.range 32).filter s.slotOn

/-- `SpriteScan`, step 2 of FRAME (R210): the active slots in ascending order. -/
def State.spriteScan (s : State) : List Sprite := s.liveSlots.map s.sprite

/-- `SpritePattern(i, fx, fy)[j][k]` (R212). -/
def State.spritePen (s : State) (p : Sprite) (fx fy : Bool) (j k : Nat) : Pen :=
  s.spatPen p.bank p.code (if fy then 15 - j else j) (if fx then 15 - k else k)

/-- Row j, column k of the pattern a 16 x 16 box at `(ox, oy)` has at the point `(x, y)`, if the point is inside. -/
def boxPoint (ox oy x y : Int) : Option (Nat × Nat) :=
  if 0 ≤ y - oy ∧ y - oy ≤ 15 ∧ 0 ≤ x - ox ∧ x - ox ≤ 15 then some ((y - oy).toNat, (x - ox).toNat) else none

/-- The palette index a sprite drawn at origin `ox` puts on the pixel `(x, y)`, if its pattern is opaque there
(R211, R213). -/
def State.spriteIndexAt (s : State) (p : Sprite) (ox : Int) (x y : Nat) : Option PalIdx :=
  match boxPoint ox p.by' x y with
  | none => none
  | some (j, k) =>
    let pen := s.spritePen p (p.sfx ^^ s.gfx) (p.sfy ^^ s.gfy) j k
    if pen = 0 then none else some (palIdx p.colour pen)

/-- The value a sprite leaves on a pixel: its first origin, then the one 256 pixels to the left (R211). -/
def State.drawSpriteAt (s : State) (x y : Nat) (old : Option PalIdx) (p : Sprite) : Option PalIdx :=
  let first := (s.spriteIndexAt p p.bx x y).or old
  (s.spriteIndexAt p (p.bx - 256) x y).or first

/-- The value `DrawSprites` leaves on a pixel of `VISIBLE` that held `old` (R211): slots 31 down to 0, so the lowest slot
is on top; nothing while `SEN = 0`. -/
def State.drawSpritesAt (s : State) (scan : List Sprite) (x y : Nat) (old : Option PalIdx) : Option PalIdx :=
  if s.sen then scan.reverse.foldl (s.drawSpriteAt x y) old else old

end Sys2Proof.Machine
end

