-- ==== Sys2Proof/Machine/Playfield.lean ====
section
/-! DEFINITION. PlayfieldRenderer (spec/42_playfield.md R190 to R197): the cell redraw, the scroll, the plane draw and the
scratch copy, written per pixel (assumption log 20). -/

namespace Sys2Proof.Machine

/-- A grid or pixel coordinate, mirrored under a global flip: `last - i` (R191). -/
def mirrored (flip : Bool) (last i : Nat) : Nat := if flip then last - i else i

/-- The cell `DrawCell` draws over the bitmap pixel `(x, y)` (R191): the grid position is mirrored under the global
flips, and mirroring twice gives the position back. -/
def State.cellAt (s : State) (x y : Nat) : Nat :=
  32 * mirrored s.gfy 31 (y / 8) + mirrored s.gfx 31 (x / 8)

/-- The value a pen of plane n is stored as: 0 is transparent, else `8 * PCOL[n] + pen` (R191, D14). -/
def State.planeIndex (s : State) (n : Plane) (pen : Pen) : PalIdx := if pen = 0 then 0 else palIdx (s.pcol n) pen

/-- The pixel `DrawCell(n, c)` writes at row j, column i of the place it draws the cell (R191). -/
def State.cellPixel (s : State) (n : Plane) (c j i : Nat) : PalIdx :=
  s.planeIndex n (s.tilePen (s.pbank n) ((s.vram.get n).read c).toNat (mirrored s.gfy 7 j) (mirrored s.gfx 7 i))

/-- `PF[n]` after the redraw of the dirty cells (R190). -/
def State.redrawn (s : State) (n : Plane) : Tab PalIdx 16 :=
  Tab.bitmap fun x y =>
    if s.cellIsDirty n (s.cellAt x y) then s.cellPixel n (s.cellAt x y) (y % 8) (x % 8) else (s.pf.get n).px x y

/-- `RedrawCells`, step 3 of FRAME (R190). -/
def State.redrawCells (s : State) : State :=
  { s with pf := .ofFn s.redrawn, cellDirty := ⟨Tab.fill false 10, Tab.fill false 10, Tab.fill false 10⟩ }

/-- `H[n]`, the horizontal scroll in pixels to the right (R193). -/
def State.scrollH (s : State) (n : Plane) : Int :=
  let b := s.scrollX n
  let coarse : Int := (b &&& 0xF8#8).toNat
  let fine : Int := ((b.toNat : Int) + s.cfg.scrollF1.get n) % 8
  (if s.gfx then coarse else -coarse) + fine + s.cfg.scrollF2.get n

/-- `V[n][c]`, the vertical scroll of column c in pixels down (R194): the column order is reversed under `GFY`. -/
def State.scrollV (s : State) (n : Plane) (c : Nat) : Int :=
  if s.gfy then (s.columnOffset n (31 - c)).toNat + (s.scrollY n).toNat
  else -((s.columnOffset n c).toNat : Int) - (s.scrollY n).toNat

/-- A bitmap coordinate taken modulo 256 (R87, R194). -/
def wrap256 (a : Int) : Nat := (a % 256).toNat

/-- `PlanePixel(n, x, y)` (R194). -/
def State.planePixel (s : State) (n : Plane) (x y : Nat) : PalIdx :=
  let xs := wrap256 (x - s.scrollH n)
  let ys := wrap256 (y - s.scrollV n (xs / 8))
  (s.pf.get n).px xs ys

/-- The value `DrawPlane(n)` leaves on a pixel of `VISIBLE` that held `old` (R195). -/
def State.drawPlaneAt (s : State) (n : Plane) (x y : Nat) (old : Option PalIdx) : Option PalIdx :=
  if s.pen n then
    let p := s.planePixel n x y
    if p = 0 then old else some p
  else old

/-- Whether a pixel of the 256 x 256 bitmap lies in the box of an active sprite (R197). -/
def inSomeBox (scan : List Sprite) (x y : Nat) : Bool := scan.any fun p => (boxPoint p.bx p.by' x y).isSome

/-- `PSCR[n]` after `ScratchCopy(n)` (R197): the plane's pixels inside the boxes, the old content elsewhere. -/
def State.scratchCopy (s : State) (scan : List Sprite) (n : Plane) (old : Tab PalIdx 16) : Tab PalIdx 16 :=
  Tab.bitmap fun x y => if inSomeBox scan x y then s.planePixel n x y else old.px x y

end Sys2Proof.Machine
end

