-- ==== Sys2Proof/Machine/Compositor.lean ====
section
/-! DEFINITION. PaletteManager and PriorityCompositor (spec/44_compositor.md R233 to R237). -/

namespace Sys2Proof.Machine

/-- One gun: the weights of its bits that are set (R233). -/
def gun (w : PalWeight) (b0 b1 b2 : Bool) : Nat :=
  (if b0 then w.w0 else 0) + (if b1 then w.w1 else 0) + (if b2 then w.w2 else 0)

/-- The colour of a palette pair, its bits inverted (R233). -/
def rgbOf (w : PalWeight) (e o : Byte) : Rgb :=
  let ne := ~~~e
  let no := ~~~o
  { r := gun w (no.getLsbD 6) (no.getLsbD 7) (ne.getLsbD 0)
    g := gun w (no.getLsbD 3) (no.getLsbD 4) (no.getLsbD 5)
    b := gun w (no.getLsbD 0) (no.getLsbD 1) (no.getLsbD 2) }

/-- `RGB(i)` (R233). -/
def State.rgb (s : State) (i : Nat) : Rgb :=
  rgbOf s.cfg.palWeight (s.palram.read (2 * i)) (s.palram.read (2 * i + 1))

/-- Whether a pixel lies in a rectangle, `CFG.VISIBLE` (R5, R235). -/
def Rect.holds (r : Rect) (x y : Nat) : Bool := r.xFirst ≤ x && x ≤ r.xLast && r.yFirst ≤ y && y ≤ r.yLast

/-- The background: the pen-0 colour of the back plane's colour code (R236). -/
def State.background (s : State) : PalIdx := palIdx (s.pcol .back) 0

/-- What the composite works on: the output surface and the scratch buffers (R237, R197). -/
structure Canvas where
  surface : Tab (Option PalIdx) 16
  pscr : PerPlane (Tab PalIdx 16)
deriving DecidableEq, Repr

/-- `Fill(OUT)`: the pixels of `VISIBLE` only (R236). -/
def State.filled (s : State) : Canvas where
  surface := Tab.bitmap fun x y => if Rect.holds s.cfg.visible x y then some s.background else none
  pscr := s.pscr

/-- The surface with every pixel of `VISIBLE` redrawn. -/
def State.redrawVisible (s : State) (t : Tab (Option PalIdx) 16) (f : Nat → Nat → Option PalIdx → Option PalIdx) :
    Tab (Option PalIdx) 16 :=
  Tab.bitmap fun x y => if Rect.holds s.cfg.visible x y then f x y (t.px x y) else t.px x y

/-- The canvas after `DrawPlane(n)`, with its scratch copy while the plane is enabled (R195, R197). -/
def State.drawPlane (s : State) (scan : List Sprite) (n : Plane) (c : Canvas) : Canvas where
  surface := s.redrawVisible c.surface (s.drawPlaneAt n)
  pscr := if s.pen n then c.pscr.set n (s.scratchCopy scan n (c.pscr.get n)) else c.pscr

/-- The canvas after `DrawSprites` (R211). -/
def State.drawSprites (s : State) (scan : List Sprite) (c : Canvas) : Canvas :=
  { c with surface := s.redrawVisible c.surface (s.drawSpritesAt scan) }

/-- The canvas after one step of the draw order (R237). -/
def State.drawLayer (s : State) (scan : List Sprite) (c : Canvas) : Layer → Canvas
  | .sprites => s.drawSprites scan c
  | .front => s.drawPlane scan .front c
  | .middle => s.drawPlane scan .middle c
  | .back => s.drawPlane scan .back c

/-- The draw order in use: `DRAWORDER[PRIORITY & 0x1F]` (R237). -/
def State.drawRow (s : State) : DrawRow := s.draworder.get s.priorityCode

/-- `Composite(OUT)`, step 4 of FRAME (R237). -/
def State.composite (s : State) (scan : List Sprite) : Canvas :=
  s.drawRow.layers.foldl (s.drawLayer scan) s.filled

end Sys2Proof.Machine
end

