-- ==== Sys2Proof/Machine/Collision.lean ====
section
/-! DEFINITION. CollisionDetector (spec/45_collision.md R260 to R266): steps 5 and 6 of FRAME. -/

namespace Sys2Proof.Machine

/-- Whether the collision steps run (R260). -/
def State.collisionsOn (s : State) : Bool := !(s.cfg.collNeedsSpritesOn && !s.sen)

/-- `|d| < 16` (R261). -/
def near (d : Int) : Bool := -16 < d && d < 16

/-- Whether two active sprites have a co-opaque pixel (R261): each pattern with its own flips, at the unflipped
origins. -/
def State.spritesHit (s : State) (p q : Sprite) : Bool :=
  let dx := q.ux - p.ux
  let dy := q.uy - p.uy
  near dx && near dy &&
    (List.range 16).any fun r => (List.range 16).any fun k =>
      match boxPoint dx dy k r with
      | none => false
      | some (r', k') => s.spritePen p p.sfx p.sfy r k != 0 && s.spritePen q q.sfx q.sfy r' k' != 0

/-- The unordered pairs of a list, the earlier element first (R261). -/
def pairsOf {α : Type} : List α → List (α × α)
  | [] => []
  | a :: l => l.map (fun b => (a, b)) ++ pairsOf l

/-- The registers after the test of one pair (R261). -/
def State.hitPair (s : State) (coll : Vector Byte 4) (pq : Sprite × Sprite) : Vector Byte 4 :=
  if s.spritesHit pq.1 pq.2 then setSpriteBit (setSpriteBit coll pq.1.slot) pq.2.slot else coll

/-- `CollideSpriteSprite`, step 5 of FRAME (R261). -/
def State.collideSprites (s : State) (scan : List Sprite) (coll : Vector Byte 4) : Vector Byte 4 :=
  if s.collisionsOn then (pairsOf scan).foldl s.hitPair coll else coll

/-- The origin of the sprite-plane test on the x axis (R264). -/
def State.testX (s : State) (p : Sprite) : Int := p.bx + (if s.gfx then s.cfg.spcFudge else 0)

/-- The origin of the sprite-plane test on the y axis (R264). -/
def State.testY (s : State) (p : Sprite) : Int := p.by' + (if s.gfy then s.cfg.spcFudge else 0)

/-- Whether an opaque pixel of a sprite lies on an opaque pixel of plane n's scratch buffer (R264). -/
def State.planeHit (s : State) (pscr : PerPlane (Tab PalIdx 16)) (p : Sprite) (n : Plane) : Bool :=
  (List.range 16).any fun r => (List.range 16).any fun k =>
    let x := s.testX p + k
    let y := s.testY p + r
    s.spritePen p (p.sfx ^^ s.gfx) (p.sfy ^^ s.gfy) r k != 0
      && decide (0 ≤ x ∧ x ≤ 255 ∧ 0 ≤ y ∧ y ≤ 255)
      && (pscr.get n).px x.toNat y.toNat != 0

/-- The registers after the test of one sprite against one plane (R264, R265). -/
def State.hitPlane (s : State) (pscr : PerPlane (Tab PalIdx 16)) (coll : Vector Byte 4) (pn : Sprite × Plane) :
    Vector Byte 4 :=
  if s.pen pn.2 && s.planeHit pscr pn.1 pn.2 then setPlaneBit coll pn.2 else coll

/-- `CollideSpritePlane`, step 6 of FRAME (R264). DEDUCED (assumption log 28): an enabled plane that the draw order
leaves out is tested on the scratch buffer it still has, as R265 says; 93_implementation_defined.md U6 says that it takes no
part. -/
def State.collidePlanes (s : State) (scan : List Sprite) (pscr : PerPlane (Tab PalIdx 16)) (coll : Vector Byte 4) :
    Vector Byte 4 :=
  if s.collisionsOn then (scan.flatMap fun p => Plane.all.map fun n => (p, n)).foldl (s.hitPlane pscr) coll else coll

end Sys2Proof.Machine
end

