-- ==== Sys2Proof/Machine/HostEvents.lean ====
section
/-! DEFINITION. The three host events: SYNC (spec/20_memory.md R83), FRAME (spec/44_compositor.md R240) and RESET
(spec/70_reset_and_hazards.md R370). -/

namespace Sys2Proof.Machine

/-- `SYNC` (R83). -/
def execSync (s : State) : Host.Outcome State Fault Refusal := .next s.drain.quiet

/-- The state after steps 1 to 3 of FRAME: the caches decoded and the dirty cells redrawn (R240). -/
def State.prepared (s : State) : State := s.decodeDirty.redrawCells

/-- The state after FRAME (R240): steps 4 to 6 on the prepared state, with the surface and the colours put out. -/
def State.rendered (s : State) : State :=
  let p := s.prepared
  let scan := p.spriteScan
  let c := p.composite scan
  let hits := p.collidePlanes scan c.pscr (p.collideSprites scan p.coll)
  { p with
    pscr := c.pscr
    coll := hits
    out := { Outputs.none with frame := some { surface := c.surface, colours := Tab.tabulate 6 p.rgb } } }

/-- `FRAME` (R240); refused when `OBJEX` is set under `OBJEX_MODE = refuse` (R388). -/
def execFrame (s : State) : Host.Outcome State Fault Refusal :=
  if s.cfg.objexMode = .refuse ∧ s.objex then .refused .objexSet else .next s.rendered

/-- `RESET` (R370). -/
def execReset (s : State) : Host.Outcome State Fault Refusal := .next s.recreate

end Sys2Proof.Machine
end

