-- ==== Sys2Proof/Machine/Registers.lean ====
section
/-! DEFINITION. The CPU's transactions with the control registers, the collision registers and the graphics-ROM port
(spec/40_bus_registers.md R142 to R153). -/

namespace Sys2Proof.Machine

/-- `CW.PRIORITY v` (R142). -/
def execCwPriority (v : Byte) (s : State) : Host.Outcome State Fault Refusal :=
  .next { s.quiet with priority := v }

/-- `CW.SCROLL off, v` (R143). -/
def execCwScroll (off : Nat) (v : Byte) (s : State) : Host.Outcome State Fault Refusal :=
  .next { s.quiet with scroll := regSet s.scroll off v }

/-- `CW.COLORBANK off, v`: a byte that changes marks every cell (R144). -/
def execCwColorbank (off : Nat) (v : Byte) (s : State) : Host.Outcome State Fault Refusal :=
  .next (if regGet s.colorbank off = v then s.quiet
    else { s.quiet.markAllCells with colorbank := regSet s.colorbank off v })

/-- `CR.COLL off`: reading does not clear (R145). -/
def execCrColl (off : Nat) (s : State) : Host.Outcome State Fault Refusal :=
  .next (s.respond (regGet s.coll off))

/-- `CW.COLLCLR v`: the data byte is ignored and all four registers become 0 (R146). -/
def execCwCollclr (_v : Byte) (s : State) : Host.Outcome State Fault Refusal :=
  .next { s.quiet with coll := Vector.replicate 4 0 }

/-- `CW.GFXPTR off, v` (R150). -/
def execCwGfxptr (off : Nat) (v : Byte) (s : State) : Host.Outcome State Fault Refusal :=
  .next { s.quiet with gfxptr := regSet s.gfxptr off v }

/-- The pointer after a read of the data port: the low byte is incremented and carries into the high byte (R151). -/
def gfxptrNext (p : Vector Byte 2) : Vector Byte 2 :=
  let p' := regSet p 0 (regGet p 0 + 1)
  if regGet p' 0 = 0 then regSet p' 1 (regGet p' 1 + 1) else p'

/-- The byte the data port shows: `RomRead` below the limit, else 0 (R151). -/
def State.gfxromByte (s : State) : Byte :=
  if s.romPointer.toNat < s.cfg.gfxRomLimit then romRead s.cfg s.romPointer.toNat else 0

/-- `CR.GFXROM` (R151). -/
def execCrGfxrom (s : State) : Host.Outcome State Fault Refusal :=
  .next { s.respond s.gfxromByte with gfxptr := gfxptrNext s.gfxptr }

/-- `CW.BANKSW v` (R152). -/
def execCwBanksw (v : Byte) (s : State) : Host.Outcome State Fault Refusal :=
  .next { s.quiet with banksw := v }

/-- `CW.VIDEN v`: a byte that changes marks every cell (R153). -/
def execCwViden (v : Byte) (s : State) : Host.Outcome State Fault Refusal :=
  .next (if s.viden = v then s.quiet else { s.quiet.markAllCells with viden := v })

end Sys2Proof.Machine
end

