-- ==== Sys2Proof/Machine/VideoRam.lean ====
section
/-! DEFINITION. The CPU's transactions with character, video, column-scroll, sprite and palette RAM
(spec/40_bus_registers.md R130 to R141). -/

namespace Sys2Proof.Machine

/-- The state after a character-RAM write: a byte that changes marks its tile and its pattern (R130). -/
def State.storeCram (s : State) (off : Nat) (v : Byte) : State :=
  if s.cram.read off = v then s else { s.markChar off with cram := s.cram.write off v }

/-- The state after a video-RAM write: a byte that changes marks its cell (R131). -/
def State.storeVram (s : State) (n : Plane) (off : Nat) (v : Byte) : State :=
  if (s.vram.get n).read off = v then s
  else { s.markCell n off with vram := s.vram.set n ((s.vram.get n).write off v) }

/-- `CW.CRAM off, v` (R130). -/
def execCwCram (off : Nat) (v : Byte) (s : State) : Host.Outcome State Fault Refusal :=
  .next (s.storeCram off v).quiet

/-- `CW.VRAM0 off, v` (R131). -/
def execCwVram0 (off : Nat) (v : Byte) (s : State) : Host.Outcome State Fault Refusal :=
  .next (s.storeVram .front off v).quiet

/-- `CW.VRAM1 off, v` (R132). -/
def execCwVram1 (off : Nat) (v : Byte) (s : State) : Host.Outcome State Fault Refusal :=
  .next (s.storeVram .middle off v).quiet

/-- `CW.VRAM2 off, v` (R133). -/
def execCwVram2 (off : Nat) (v : Byte) (s : State) : Host.Outcome State Fault Refusal :=
  .next (s.storeVram .back off v).quiet

/-- `CR.VRAM0 off` (R134). -/
def execCrVram0 (off : Nat) (s : State) : Host.Outcome State Fault Refusal :=
  .next (s.respond ((s.vram.get .front).read off))

/-- `CR.VRAM1 off` (R135). -/
def execCrVram1 (off : Nat) (s : State) : Host.Outcome State Fault Refusal :=
  .next (s.respond ((s.vram.get .middle).read off))

/-- `CR.VRAM2 off` (R136). -/
def execCrVram2 (off : Nat) (s : State) : Host.Outcome State Fault Refusal :=
  .next (s.respond ((s.vram.get .back).read off))

/-- `CW.COLSCROLL off, v` (R137). -/
def execCwColscroll (off : Nat) (v : Byte) (s : State) : Host.Outcome State Fault Refusal :=
  .next { s.quiet with colscroll := s.colscroll.write off v }

/-- `CR.COLSCROLL off` (R138). -/
def execCrColscroll (off : Nat) (s : State) : Host.Outcome State Fault Refusal :=
  .next (s.respond (s.colscroll.read off))

/-- `CW.SPRAM off, v` (R139). -/
def execCwSpram (off : Nat) (v : Byte) (s : State) : Host.Outcome State Fault Refusal :=
  .next { s.quiet with spram := s.spram.write off v }

/-- `CR.SPRAM off` (R140). -/
def execCrSpram (off : Nat) (s : State) : Host.Outcome State Fault Refusal :=
  .next (s.respond (s.spram.read off))

/-- `CW.PALRAM off, v` (R141). -/
def execCwPalram (off : Nat) (v : Byte) (s : State) : Host.Outcome State Fault Refusal :=
  .next { s.quiet with palram := s.palram.write off v }

end Sys2Proof.Machine
end

