-- ==== Sys2Proof/Machine/Dispatch.lean ====
section
/-! DEFINITION. One arm per transaction of spec/opcode_table.json. -/

namespace Sys2Proof.Machine

def exec (i : Instr) (s : State) : Host.Outcome State Fault Refusal :=
  match i with
  | .cwCram off v => Sys2Proof.Machine.execCwCram off v s
  | .cwVram0 off v => Sys2Proof.Machine.execCwVram0 off v s
  | .cwVram1 off v => Sys2Proof.Machine.execCwVram1 off v s
  | .cwVram2 off v => Sys2Proof.Machine.execCwVram2 off v s
  | .crVram0 off => Sys2Proof.Machine.execCrVram0 off s
  | .crVram1 off => Sys2Proof.Machine.execCrVram1 off s
  | .crVram2 off => Sys2Proof.Machine.execCrVram2 off s
  | .cwColscroll off v => Sys2Proof.Machine.execCwColscroll off v s
  | .crColscroll off => Sys2Proof.Machine.execCrColscroll off s
  | .cwSpram off v => Sys2Proof.Machine.execCwSpram off v s
  | .crSpram off => Sys2Proof.Machine.execCrSpram off s
  | .cwPalram off v => Sys2Proof.Machine.execCwPalram off v s
  | .cwPriority v => Sys2Proof.Machine.execCwPriority v s
  | .cwScroll off v => Sys2Proof.Machine.execCwScroll off v s
  | .cwColorbank off v => Sys2Proof.Machine.execCwColorbank off v s
  | .crColl off => Sys2Proof.Machine.execCrColl off s
  | .cwCollclr v => Sys2Proof.Machine.execCwCollclr v s
  | .cwGfxptr off v => Sys2Proof.Machine.execCwGfxptr off v s
  | .crGfxrom => Sys2Proof.Machine.execCrGfxrom s
  | .cwBanksw v => Sys2Proof.Machine.execCwBanksw v s
  | .cwViden v => Sys2Proof.Machine.execCwViden v s
  | .cwMcudata v => Sys2Proof.Machine.execCwMcudata v s
  | .crMcudata => Sys2Proof.Machine.execCrMcudata s
  | .crMcustatus => Sys2Proof.Machine.execCrMcustatus s
  | .mrPorta => Sys2Proof.Machine.execMrPorta s
  | .mwPorta v => Sys2Proof.Machine.execMwPorta v s
  | .mwPortb v => Sys2Proof.Machine.execMwPortb v s
  | .mrPortb => Sys2Proof.Machine.execMrPortb s
  | .mrPortc => Sys2Proof.Machine.execMrPortc s
  | .cwAlpinecode v => Sys2Proof.Machine.execCwAlpinecode v s
  | .crAlpinein => Sys2Proof.Machine.execCrAlpinein s
  | .sync => Sys2Proof.Machine.execSync s
  | .frame => Sys2Proof.Machine.execFrame s
  | .reset => Sys2Proof.Machine.execReset s

end Sys2Proof.Machine
end

