-- ==== Sys2Proof/Machine/Fetch.lean ====
section
/-! DEFINITION. Fetching the next transaction (spec/00_scope.md R10; spec/30_encoding.md R101, R108): the block is driven by
the trace of events the agents issue, one word each (assumption log 1). -/

namespace Sys2Proof.Machine

/-- The state in which a transaction runs: its word is taken from the trace and its agent noted (R10, R83 (a)). -/
def State.issued (s : State) (i : Instr) (rest : List TraceWord) : State :=
  ({ s with trace := rest } : State).noteAgent i.agent

/-- The next transaction and the state it runs in, or why there is none (R10, R108). -/
def fetch (s : State) : Except Refusal (Instr × State) :=
  match s.trace with
  | [] => .error .noEvent
  | w :: rest =>
    match decode s.cfg.addrMap w with
    | .error e => .error (.notDecoded e)
    | .ok i => .ok (i, s.issued i rest)

/-- The state with a word placed as the next transaction of the trace. -/
def placeWord (s : State) (w : TraceWord) : State := { s with trace := w :: s.trace }

/-- The trace word of a row's bits: one word of 32 bits, the bits above `nbits` 0. -/
def tableWord (nbits w : Nat) : TraceWord := BitVec.ofNat 32 (w % 2 ^ nbits)

end Sys2Proof.Machine
end

