-- ==== Sys2Proof/Machine/Step.lean ====
section
/-! DEFINITION. One step: one event of the trace (spec/00_scope.md R10; assumption log 1). -/

namespace Sys2Proof.Machine

/-- `s` with the word of a row's bits as the next transaction of the trace. -/
def State.withFetchWord (s : State) (nbits w : Nat) : State := placeWord s (tableWord nbits w)

/-- One event: fetch the next transaction and perform it. -/
def step (s : State) : Host.Outcome State Fault Refusal :=
  match fetch s with
  | .error r => .refused r
  | .ok (i, t) => exec i t

end Sys2Proof.Machine
end

