-- ==== Sys2Proof/Safety.lean ====
section
/-! DEFINITION. What counts as a safe run, in the terms the claims use: the invariants of the block's state, which
transactions a configuration admits, and the spec's own wording of a picture and of a collision. -/

namespace Sys2Proof.Machine

/-- The CPU write and read of video RAM, by plane (R131 to R136). -/
def vramWrite : Plane → Nat → Byte → Instr
  | .front => .cwVram0
  | .middle => .cwVram1
  | .back => .cwVram2

/-- The CPU read of video RAM, by plane (R134 to R136). -/
def vramRead : Plane → Nat → Instr
  | .front => .crVram0
  | .middle => .crVram1
  | .back => .crVram2

/-- Every RAM is in canonical form and lists only offsets inside itself (R71). -/
structure State.MemoriesWf (s : State) : Prop where
  cram : s.cram.wf ∧ s.cram.within 0x3000
  vram : ∀ n, (s.vram.get n).wf ∧ (s.vram.get n).within 0x400
  colscroll : s.colscroll.wf ∧ s.colscroll.within 0x60
  palram : s.palram.wf ∧ s.palram.within 0x80
  spram : s.spram.wf ∧ s.spram.within 0x80

/-- A cache entry is valid iff not dirty (R174): a clean tile equals the unpack of the current character RAM. -/
def State.TilesValid (s : State) : Prop :=
  ∀ b t r x, t < 256 → r < 8 → x < 8 → s.tileIsDirty b t = false →
    s.tilePen b t r x = unpackTile s.cfg s.cram b t r x

/-- A clean pattern equals the unpack of the current character RAM (R174). -/
def State.SpatsValid (s : State) : Prop :=
  ∀ b p r x, p < 64 → r < 16 → x < 16 → s.spatIsDirty b p = false →
    s.spatPen b p r x = unpackSpat s.cfg s.cram b p r x

/-- The invariant of the block that every event keeps. -/
structure State.Inv (s : State) : Prop where
  /-- the memories keep their canonical form -/
  memories : s.MemoriesWf
  /-- valid iff not dirty (R170, R174) -/
  tiles : s.TilesValid
  /-- valid iff not dirty (R170, R174) -/
  spats : s.SpatsValid
  /-- the draw order is the decode of the PROM, immutable after RESET (R31, R231) -/
  order : s.draworder = promDecode s.cfg
  /-- `COLL[3] & 0xF8 = 0` always (R34, R268) -/
  coll : regGet s.coll 3 &&& 0xF8 = 0

/-- A plane's bitmap shows, at the place `DrawCell` draws cell c, what a redraw of the cell would draw now (R191, R198). -/
def State.CellCurrent (s : State) (n : Plane) (c : Nat) : Prop :=
  ∀ j i, j < 8 → i < 8 →
    (s.pf.get n).px (8 * mirrored s.gfx 31 (c % 32) + i) (8 * mirrored s.gfy 31 (c / 32) + j) = s.cellPixel n c j i

/-- Every clean cell of every plane shows its current pixels (R198). -/
def State.PlanesCurrent (s : State) : Prop :=
  ∀ n c, c < 1024 → s.cellIsDirty n c = false → s.CellCurrent n c

/-- FRAME has a step (R240 step 0, R388). -/
def State.frameAllowed (s : State) : Bool := !(s.cfg.objexMode == .refuse && s.objex)

/-- Which transactions the configuration admits (R290, R388, R342). -/
def State.admits (s : State) : Instr → Bool
  | .mrPorta | .mwPorta _ | .mwPortb _ | .mrPortb | .mrPortc => s.cfg.protVariant == .mcu
  | .cwAlpinecode _ | .crAlpinein => s.cfg.protVariant == .alpine
  | .frame => s.frameAllowed
  | .cwCram _ _ | .cwVram0 _ _ | .cwVram1 _ _ | .cwVram2 _ _ | .crVram0 _ | .crVram1 _ | .crVram2 _
  | .cwColscroll _ _ | .crColscroll _ | .cwSpram _ _ | .crSpram _ | .cwPalram _ _ | .cwPriority _ | .cwScroll _ _
  | .cwColorbank _ _ | .crColl _ | .cwCollclr _ | .cwGfxptr _ _ | .crGfxrom | .cwBanksw _ | .cwViden _
  | .cwMcudata _ | .crMcudata | .crMcustatus | .sync | .reset => true

/-- The run so far has obeyed the SYNC duty of R83 (a) (assumption log 8). -/
def State.Legal (s : State) : Prop := s.marked = false

/-- Plane n's pixel at `(x, y)` of the picture, if the plane is enabled and opaque there (R195). -/
def State.planeOpaque (s : State) (n : Plane) (x y : Nat) : Option PalIdx :=
  if s.pen n = true ∧ s.planePixel n x y ≠ 0 then some (s.planePixel n x y) else none

/-- Slot i's pixel at `(x, y)` from the copy drawn at column origin `ox`, if it is opaque there (R211). -/
def State.slotOpaqueFrom (s : State) (i : Nat) (ox : Int) (x y : Nat) : Option PalIdx :=
  if ox ≤ x ∧ x ≤ ox + 15 ∧ s.slotBy i ≤ y ∧ y ≤ s.slotBy i + 15 then
    let pen := s.spritePen (s.sprite i) (s.sfx i ^^ s.gfx) (s.sfy i ^^ s.gfy) (y - s.slotBy i).toNat (x - ox).toNat
    if pen = 0 then none else some (palIdx (s.spriteColour i) pen)
  else none

/-- Slot i's pixel at `(x, y)`: the copy 256 pixels to the left is drawn last (R211). -/
def State.slotOpaque (s : State) (i : Nat) (x y : Nat) : Option PalIdx :=
  (s.slotOpaqueFrom i (s.slotBx i - 256) x y).or (s.slotOpaqueFrom i (s.slotBx i) x y)

/-- The sprite layer's pixel at `(x, y)`: the lowest active slot that is opaque there, while sprites are enabled (R211). -/
def State.spritesOpaque (s : State) (x y : Nat) : Option PalIdx :=
  if s.sen then (List.range 32).findSome? fun i => if s.slotOn i then s.slotOpaque i x y else none else none

/-- A layer's pixel at `(x, y)`, if the layer is enabled and opaque there (R237). -/
def State.layerOpaque (s : State) (x y : Nat) : Layer → Option PalIdx
  | .sprites => s.spritesOpaque x y
  | .front => s.planeOpaque .front x y
  | .middle => s.planeOpaque .middle x y
  | .back => s.planeOpaque .back x y

/-- The pixel of the last-drawn enabled layer that is opaque there, or the background (R237). -/
def State.picture (s : State) (x y : Nat) : PalIdx :=
  (s.drawRow.layers.reverse.findSome? (s.layerOpaque x y)).getD s.background

/-- Two slots have a co-opaque pixel: an opaque pixel of each pattern, with the slot's own flips, at the same screen
position of the unflipped origins (R261). -/
def State.coOpaque (s : State) (i j : Nat) : Prop :=
  ∃ r k r' k' : Nat, r < 16 ∧ k < 16 ∧ r' < 16 ∧ k' < 16 ∧
    s.slotUx i + k = s.slotUx j + k' ∧ s.slotUy i + r = s.slotUy j + r' ∧
    s.spritePen (s.sprite i) (s.sfx i) (s.sfy i) r k ≠ 0 ∧ s.spritePen (s.sprite j) (s.sfx j) (s.sfy j) r' k' ≠ 0

/-- An opaque pixel of slot i, drawn with the global flips and moved by the fudge, lies on an opaque pixel of plane n's
scratch buffer inside the 256 x 256 bitmap (R264). -/
def State.overPlane (s : State) (i : Nat) (n : Plane) : Prop :=
  ∃ r k x y : Nat, r < 16 ∧ k < 16 ∧ x < 256 ∧ y < 256 ∧
    (x : Int) = s.slotBx i + (if s.gfx then s.cfg.spcFudge else 0) + k ∧
    (y : Int) = s.slotBy i + (if s.gfy then s.cfg.spcFudge else 0) + r ∧
    s.spritePen (s.sprite i) (s.sfx i ^^ s.gfx) (s.sfy i ^^ s.gfy) r k ≠ 0 ∧
    (s.pscr.get n).px x y ≠ 0

end Sys2Proof.Machine
end

