-- ==== Sys2Proof/Certificates/Slice0/Obligations.lean ====
section
/-! DEFINITION. The statements for the provers. Rule numbers are those of spec/; every statement holds for every
configuration, since the configuration is part of the state. The field `out` is the model's record of what one event puts
out (assumption log 9). -/

open Sys2Proof Sys2Proof.Machine

/-! ### Encoding -/

/-- Nine trace words of 95_test_vectors.md Part 3 decode, under the default address map, to the transactions they are
listed with (R101, R102), and one word of a reserved kind is rejected (R108). -/
def Obligations.SpecWordsDecode : Prop :=
  decode AddrMap.standard 0x00880042 = .ok (.cwMcudata 0x42) ∧
  decode AddrMap.standard 0x200001FD = .ok (.mwPortb 0xFD) ∧
  decode AddrMap.standard 0x30000200 = .ok .mrPortc ∧
  decode AddrMap.standard 0x10880100 = .ok .crMcustatus ∧
  decode AddrMap.standard 0x00A01081 = .ok (.cwCram 0x1010 0x81) ∧
  decode AddrMap.standard 0x00C44102 = .ok (.cwVram0 0x41 0x02) ∧
  decode AddrMap.standard 0x10D40300 = .ok (.crColl 3) ∧
  decode AddrMap.standard 0x00D50A7F = .ok (.cwGfxptr 1 0x7F) ∧
  decode AddrMap.standard 0x50000000 = .ok .frame ∧
  decode AddrMap.standard 0x70000000 = .error .reservedKind

/-- DECODE AND ENCODE AGREE, for every transaction and every address map of R102's form: the word written for a
well-formed transaction decodes to it (R101, R102, R110). -/
def Obligations.DecodeOfEncode : Prop :=
  ∀ (m : AddrMap) (i : Instr), m.wf → WellFormed i = true → decode m (encode m i) = .ok i

/-- EACH WORD HAS ONE MEANING: a word that decodes to a transaction is the word written for it, for a read up to its data
byte. R101 says that this byte is 0; that it is not decoded, so that the word is a read whatever it holds, is the model's
choice (log 17). -/
def Obligations.EncodeOfDecode : Prop :=
  ∀ (m : AddrMap) (w : TraceWord) (i : Instr), m.wf → decode m w = .ok i →
    encode m i = if i.kind = .cr ∨ i.kind = .mr then w &&& 0xFFFFFF00 else w

/-- The address decode never yields an offset outside the port (R71): what is decoded is well formed. It holds under any
address map at all; for a map that is not of R102's form that is the model's choice (log 18). -/
def Obligations.DecodedIsWellFormed : Prop :=
  ∀ (m : AddrMap) (w : TraceWord) (i : Instr), decode m w = .ok i → WellFormed i = true

/-- Words with non-zero bits 27:24 or a kind 7..15 are rejected, each by its name (R101, R108). -/
def Obligations.ReservedWordsRejected : Prop :=
  ∀ (m : AddrMap) (w : TraceWord),
    (w.extractLsb' 24 4 ≠ 0 → decode m w = .error .reservedBits) ∧
    (w.extractLsb' 24 4 = 0 → 7 ≤ (w.extractLsb' 28 4).toNat → decode m w = .error .reservedKind)

/-- A STEP RUNS THE DECODED TRANSACTION: when the next word of the trace decodes to i, a step is exec of i in the state
whose trace has lost the word. For an event of a processor the model also notes the processor, and marks the run when
the event of the other processor came last with no SYNC between: the model's own bookkeeping for R83 (a) (log 8). -/
def Obligations.StepRunsDecoded : Prop :=
  ∀ (s : State) (w : TraceWord) (rest : List TraceWord) (i : Instr), s.trace = w :: rest →
    decode s.cfg.addrMap w = .ok i →
    step s = exec i
      (if i.agent = .host then { s with trace := rest }
       else { s with
        trace := rest
        lastProc := some i.agent
        marked := s.marked || (s.lastProc.isSome && s.lastProc != some i.agent) })

/-- Where a step has no transaction to run: the trace is at its end, or its next word is no transaction (R108, R342).
That the end of the trace is a refusal is the model's choice (log 14). -/
def Obligations.StepRefusesNoTransaction : Prop :=
  ∀ s : State,
    (s.trace = [] → step s = .refused .noEvent) ∧
    (∀ w rest e, s.trace = w :: rest → decode s.cfg.addrMap w = .error e → step s = .refused (.notDecoded e))

/-! ### Video RAM and registers -/

/-- `CW.CRAM` (R130): the byte is stored; when it changes, the tile `(off div 8) & 0xFF` and the pattern
`(off div 32) & 0x3F` of the bank become dirty; nothing else changes. -/
def Obligations.CwCramStoresAndMarks : Prop :=
  ∀ (s : State) (off : Nat) (v : Byte), off < 0x3000 → s.cram.wf →
    ∃ t, exec (.cwCram off v) s = .next t ∧
      t.cram.read off = v ∧ (∀ a, a ≠ off → t.cram.read a = s.cram.read a) ∧
      (∀ b i, i < 256 → t.tileIsDirty b i =
        (s.tileIsDirty b i ||
          (s.cram.read off != v && b == (if off < 0x1800 then .bank0 else .bank1) && i == off / 8 % 256))) ∧
      (∀ b i, i < 64 → t.spatIsDirty b i =
        (s.spatIsDirty b i ||
          (s.cram.read off != v && b == (if off < 0x1800 then .bank0 else .bank1) && i == off / 32 % 64))) ∧
      t = { s with cram := t.cram, tileDirty := t.tileDirty, spatDirty := t.spatDirty, out := Outputs.none }

/-- `CW.VRAMn` (R131, R132, R133): the byte is stored; when it changes, the cell becomes dirty; nothing else changes. -/
def Obligations.CwVramStoresAndMarks : Prop :=
  ∀ (s : State) (n : Plane) (off : Nat) (v : Byte), off < 0x400 → (s.vram.get n).wf →
    ∃ t, exec (vramWrite n off v) s = .next t ∧
      (t.vram.get n).read off = v ∧
      (∀ m a, ¬(m = n ∧ a = off) → (t.vram.get m).read a = (s.vram.get m).read a) ∧
      (∀ m c, c < 1024 → t.cellIsDirty m c =
        (s.cellIsDirty m c || ((s.vram.get n).read off != v && m == n && c == off))) ∧
      t = { s with vram := t.vram, cellDirty := t.cellDirty, out := Outputs.none }

/-- `CR.VRAMn` (R134, R135, R136) returns the stored byte with no side effect. -/
def Obligations.CrVramReturnsStored : Prop :=
  ∀ (s : State) (n : Plane) (off : Nat), off < 0x400 →
    exec (vramRead n off) s = .next { s with out := { Outputs.none with data := some ((s.vram.get n).read off) } }

/-- `CW.COLSCROLL`, `CW.SPRAM`, `CW.PALRAM` (R137, R139, R141) store their byte and change nothing else: no dirty bit, no
other byte. -/
def Obligations.PlainRamStores : Prop :=
  ∀ (s : State) (off : Nat) (v : Byte),
    (off < 0x60 → s.colscroll.wf → ∃ t, exec (.cwColscroll off v) s = .next t ∧
      t.colscroll.read off = v ∧ (∀ a, a ≠ off → t.colscroll.read a = s.colscroll.read a) ∧
      t = { s with colscroll := t.colscroll, out := Outputs.none }) ∧
    (off < 0x80 → s.spram.wf → ∃ t, exec (.cwSpram off v) s = .next t ∧
      t.spram.read off = v ∧ (∀ a, a ≠ off → t.spram.read a = s.spram.read a) ∧
      t = { s with spram := t.spram, out := Outputs.none }) ∧
    (off < 0x80 → s.palram.wf → ∃ t, exec (.cwPalram off v) s = .next t ∧
      t.palram.read off = v ∧ (∀ a, a ≠ off → t.palram.read a = s.palram.read a) ∧
      t = { s with palram := t.palram, out := Outputs.none })

/-- `CR.COLSCROLL`, `CR.SPRAM`, `CR.COLL` (R138, R140, R145) return the stored byte with no side effect: a read of a
collision register clears nothing. -/
def Obligations.PlainReadsReturnStored : Prop :=
  ∀ (s : State) (off : Nat),
    (off < 0x60 → exec (.crColscroll off) s =
      .next { s with out := { Outputs.none with data := some (s.colscroll.read off) } }) ∧
    (off < 0x80 → exec (.crSpram off) s =
      .next { s with out := { Outputs.none with data := some (s.spram.read off) } }) ∧
    (off < 4 → exec (.crColl off) s =
      .next { s with out := { Outputs.none with data := some (regGet s.coll off) } })

/-- The examples of R134, R138, R140 for every byte: a byte written to a RAM that reads back (R74), the hole's bytes
included, is what the next read of it returns. -/
def Obligations.StoreThenLoad : Prop :=
  ∀ (s : State) (off : Nat) (v : Byte), s.MemoriesWf →
    (∀ n, off < 0x400 → ∃ t u, exec (vramWrite n off v) s = .next t ∧ exec (vramRead n off) t = .next u ∧
      u.out.data = some v) ∧
    (off < 0x60 → ∃ t u, exec (.cwColscroll off v) s = .next t ∧ exec (.crColscroll off) t = .next u ∧
      u.out.data = some v) ∧
    (off < 0x80 → ∃ t u, exec (.cwSpram off v) s = .next t ∧ exec (.crSpram off) t = .next u ∧
      u.out.data = some v)

/-- `CW.PRIORITY` and `CW.BANKSW` (R142, R152): the register takes the byte and nothing else changes; the priority code is
`v & 0x1F` and the bank-select output `v[7]`. -/
def Obligations.SingleRegistersTakeTheByte : Prop :=
  ∀ (s : State) (v : Byte),
    (∃ t, exec (.cwPriority v) s = .next t ∧ t = { s with priority := v, out := Outputs.none } ∧
      t.priorityCode = (v &&& 0x1F).toNat ∧ t.drawRow = s.draworder.get (v &&& 0x1F).toNat) ∧
    (∃ t, exec (.cwBanksw v) s = .next t ∧ t = { s with banksw := v, out := Outputs.none } ∧
      t.bankSelect = decide (0x80 ≤ v.toNat))

/-- `CW.SCROLL` and `CW.GFXPTR` (R143, R150): the addressed byte of the array is replaced, the others and all else
unchanged; no cell becomes dirty. -/
def Obligations.RegisterArraysStore : Prop :=
  ∀ (s : State) (off : Nat) (v : Byte),
    (off < 6 → ∃ t, exec (.cwScroll off v) s = .next t ∧
      regGet t.scroll off = v ∧ (∀ i, i ≠ off → regGet t.scroll i = regGet s.scroll i) ∧
      t = { s with scroll := t.scroll, out := Outputs.none }) ∧
    (off < 2 → ∃ t, exec (.cwGfxptr off v) s = .next t ∧
      regGet t.gfxptr off = v ∧ (∀ i, i ≠ off → regGet t.gfxptr i = regGet s.gfxptr i) ∧
      t = { s with gfxptr := t.gfxptr, out := Outputs.none })

/-- `CW.COLORBANK` (R144): the register takes the byte; every cell of every plane becomes dirty exactly when the byte
changes; nothing else changes. -/
def Obligations.CwColorbankMarksAllCells : Prop :=
  ∀ (s : State) (off : Nat) (v : Byte), off < 2 →
    ∃ t, exec (.cwColorbank off v) s = .next t ∧
      regGet t.colorbank off = v ∧ (∀ i, i ≠ off → regGet t.colorbank i = regGet s.colorbank i) ∧
      (∀ n c, c < 1024 → t.cellIsDirty n c = (s.cellIsDirty n c || regGet s.colorbank off != v)) ∧
      t = { s with colorbank := t.colorbank, cellDirty := t.cellDirty, out := Outputs.none }

/-- `CW.VIDEN` (R153): the register takes the byte; every cell of every plane becomes dirty exactly when the byte
changes; nothing else changes. -/
def Obligations.CwVidenMarksAllCells : Prop :=
  ∀ (s : State) (v : Byte),
    ∃ t, exec (.cwViden v) s = .next t ∧
      (∀ n c, c < 1024 → t.cellIsDirty n c = (s.cellIsDirty n c || s.viden != v)) ∧
      t = { s with viden := v, cellDirty := t.cellDirty, out := Outputs.none }

/-- `CW.COLLCLR` (R146): whatever the data byte, all four collision registers become 0 and nothing else changes. -/
def Obligations.CwCollclrClears : Prop :=
  ∀ (s : State) (v : Byte),
    ∃ t, exec (.cwCollclr v) s = .next t ∧ (∀ i, i < 4 → regGet t.coll i = 0) ∧
      t = { s with coll := t.coll, out := Outputs.none }

/-- `CR.GFXROM` (R151): the byte at the pointer, 0 at or above the limit; the pointer is incremented as a 16-bit value
that wraps from 0xFFFF to 0x0000; nothing else changes. -/
def Obligations.CrGfxromReadsAndIncrements : Prop :=
  ∀ s : State,
    ∃ t, exec .crGfxrom s = .next t ∧
      t.out = { Outputs.none with
        data := some (if s.romPointer.toNat < s.cfg.gfxRomLimit then romRead s.cfg s.romPointer.toNat else 0) } ∧
      256 * (regGet t.gfxptr 1).toNat + (regGet t.gfxptr 0).toNat =
        (256 * (regGet s.gfxptr 1).toNat + (regGet s.gfxptr 0).toNat + 1) % 65536 ∧
      t = { s with gfxptr := t.gfxptr, out := t.out }

/-! ### The protection bridge -/

/-- `CW.MCUDATA` and `CR.MCUDATA` in the variant MCU (R291, R292): the event is deferred, the read returns `TOZ80` as it
stands, and no flag, latch or line changes. -/
def Obligations.McuDataPortDefers : Prop :=
  ∀ (s : State) (v : Byte), s.cfg.protVariant = .mcu →
    exec (.cwMcudata v) s = .next { s with evq := s.evq ++ [.cpuData v], out := Outputs.none } ∧
    exec .crMcudata s =
      .next { s with evq := s.evq ++ [.cpuTook], out := { Outputs.none with data := some s.toz80 } }

/-- `CR.MCUSTATUS` in the variant MCU (R293, R294, R295): the flags are sampled first, in the four values of R295's
table; then the state is that of a SYNC when `STATUS_READ_SYNCS`, else unchanged. -/
def Obligations.StatusSamplesThenSyncs : Prop :=
  ∀ s : State, s.cfg.protVariant = .mcu →
    ∃ t u, exec .crMcustatus s = .next t ∧ exec .sync s = .next u ∧
      t.out = { Outputs.none with data := some (match s.zready, s.zaccept with
        | false, false => 0xFF
        | true, false => 0xFE
        | false, true => 0xFD
        | true, true => 0xFC) } ∧
      t = { (if s.cfg.statusReadSyncs then u else s) with out := t.out }

/-- The stubs of the variants without an MCU (R316): the data port reads 0x00, the status port 0xFF, a data write is
accepted and ignored; no state changes, no event is queued and no SYNC is implied. -/
def Obligations.StubsWithoutMcu : Prop :=
  ∀ (s : State) (v : Byte), s.cfg.protVariant ≠ .mcu →
    exec .crMcudata s = .next { s with out := { Outputs.none with data := some 0x00 } } ∧
    exec .crMcustatus s = .next { s with out := { Outputs.none with data := some 0xFF } } ∧
    exec (.cwMcudata v) s = .next { s with out := Outputs.none }

/-- `MR.PORTA`, `MR.PORTB`, `MR.PORTC`, `MW.PORTA` (R300, R308, R309, R310): port A reads its input latch, port B 0xFF,
port C `ZREADY + 2 * ZACCEPT`, none with a side effect; no transaction writes port C; a write of port A replaces its
output latch alone. -/
def Obligations.McuPortsAnswer : Prop :=
  ∀ (s : State) (v : Byte), s.cfg.protVariant = .mcu →
    exec .mrPorta s = .next { s with out := { Outputs.none with data := some s.portaIn } } ∧
    exec .mrPortb s = .next { s with out := { Outputs.none with data := some 0xFF } } ∧
    exec .mrPortc s = .next { s with out := { Outputs.none with
      data := some (BitVec.ofNat 8 (s.zready.toNat + 2 * s.zaccept.toNat)) } } ∧
    exec (.mwPorta v) s = .next { s with portaOut := v, out := Outputs.none } ∧
    (∀ i : Instr, i.port = some .portc → i = .mrPortc)

/-- `MW.PORTB` under R5's line assignment (R301 to R307, R311): what every byte written does. The asserted lines act in
ascending bit order: the read latch, the write latch, the indirect write at the address as it was, the indirect read at
the address as the write left it, then the loads of the address; nothing else changes. The byte an indirect read draws
is any byte; how the model keeps the bytes laid out for it (`busIn`, `draws`) is the model's choice (log 5). -/
def Obligations.MwPortbLines : Prop :=
  ∀ (s : State) (v : Byte), s.cfg.protVariant = .mcu → s.cfg.portbMap = Config.standardPortb →
    let low : Nat → Bool := fun k => !v.getLsbD k
    let a : BusAddr := if low 3 then (s.addr16 &&& 0xFF00) ||| ((s.addr16 + 1) &&& 0x00FF) else s.addr16
    ∃ t, exec (.mwPortb v) s = .next t ∧
      t.evq = s.evq ++ (if low 1 then [.mcuTook] else []) ++ (if low 2 then [.mcuData s.portaOut] else []) ∧
      t.mcuIrq = (s.mcuIrq && !low 1) ∧
      t.portaIn = (if low 4 then s.busByte else if low 1 then s.fromz80 else s.portaIn) ∧
      t.out = { Outputs.none with
        busWrites := if low 3 then [(s.addr16, s.portaOut)] else []
        busReads := if low 4 then [a] else [] } ∧
      t.addr16 = (if low 6 then s.portaOut else a.extractLsb' 8 8) ++ (if low 5 then s.portaOut else a.extractLsb' 0 8) ∧
      t = { s with
        evq := t.evq
        mcuIrq := t.mcuIrq
        portaIn := t.portaIn
        addr16 := t.addr16
        busIn := if low 4 then s.busIn.tail else s.busIn
        draws := if low 4 && s.busIn.isEmpty then s.draws + 1 else s.draws
        out := t.out }

/-- A byte that is 1 in every bit with a line does nothing, whatever the line assignment (R301, R106). -/
def Obligations.UnassertedLinesDoNothing : Prop :=
  ∀ (s : State) (v : Byte), s.cfg.protVariant = .mcu →
    (∀ (k : Nat) (l : PortBLine), s.cfg.portbMap[k]? = some (some l) → v.getLsbD k = true) →
    exec (.mwPortb v) s = .next { s with out := Outputs.none }

/-- SYNC (R83, R296 to R299): the queue is emptied and its events applied oldest first, so each flag and latch ends as
the last event that sets it leaves it; a SYNC with an empty queue does nothing to them; nothing else of the block
changes. (That no processor is then owed a SYNC is the model's bookkeeping, log 8.) -/
def Obligations.SyncDrains : Prop :=
  ∀ s : State,
    ∃ t, exec .sync s = .next t ∧ t.evq = [] ∧
      t.zready = s.evq.foldl (fun z e => match e with | .cpuData _ => true | .mcuTook => false | _ => z) s.zready ∧
      t.zaccept = s.evq.foldl (fun z e => match e with | .cpuTook => true | .mcuData _ => false | _ => z) s.zaccept ∧
      t.mcuIrq = s.evq.foldl (fun z e => match e with | .cpuData _ => true | _ => z) s.mcuIrq ∧
      t.fromz80 = s.evq.foldl (fun z e => match e with | .cpuData v => v | _ => z) s.fromz80 ∧
      t.toz80 = s.evq.foldl (fun z e => match e with | .mcuData v => v | _ => z) s.toz80 ∧
      t = { s with
        evq := []
        zready := t.zready
        zaccept := t.zaccept
        mcuIrq := t.mcuIrq
        fromz80 := t.fromz80
        toz80 := t.toz80
        lastProc := none
        out := Outputs.none }

/-- The alpine lookup (R313, R314): a code of the table selects its value, another passes through; a read returns the
host's input byte, any byte, with the value ORed in; nothing else of the block changes. How the model keeps the bytes laid
out for the host's port (`portIn`, `draws`) is the model's choice (log 6), and so is that the first row of a code counts in
a table that lists it twice (log 15). -/
def Obligations.AlpineLookup : Prop :=
  ∀ (s : State) (v : Byte), s.cfg.protVariant = .alpine →
    (∃ t, exec (.cwAlpinecode v) s = .next t ∧
      ((∀ r ∈ s.cfg.alpineTable, r.1 ≠ v) → t.protValue = v) ∧
      (∀ l r l', s.cfg.alpineTable = l ++ (v, r) :: l' → (∀ x ∈ l, x.1 ≠ v) → t.protValue = r) ∧
      t = { s with protValue := t.protValue, out := Outputs.none }) ∧
    (∃ t, exec .crAlpinein s = .next t ∧
      t = { s with
        portIn := s.portIn.tail
        draws := if s.portIn.isEmpty then s.draws + 1 else s.draws
        out := { Outputs.none with data := some (s.portByte ||| s.protValue) } })

/-- The transactions a variant does not have are refused by name (R290, R108). -/
def Obligations.VariantsRefuse : Prop :=
  ∀ (s : State) (v : Byte),
    (s.cfg.protVariant ≠ .mcu → ∀ i ∈ [Instr.mrPorta, .mwPorta v, .mwPortb v, .mrPortb, .mrPortc],
      exec i s = .refused .absentInVariant) ∧
    (s.cfg.protVariant ≠ .alpine → ∀ i ∈ [Instr.cwAlpinecode v, .crAlpinein],
      exec i s = .refused .absentInVariant)

/-- The bridge's invariants (R318 (1), (2), (6)), over every transaction but RESET: the flags and the CPU's and the MCU's
latches change only inside a SYNC (the event, or the one a status read ends with); `MCU_IRQ` rises only there and falls
only in a port B write whose bit of the read latch is 0; `ADDR16`, `PORTA_IN` and `PORTA_OUT` change only in MCU events. -/
def Obligations.BridgeChangesOnlyWhereSaid : Prop :=
  ∀ (i : Instr) (s t : State), exec i s = .next t → i ≠ .reset →
    (i ≠ .sync → i ≠ .crMcustatus →
      t.zready = s.zready ∧ t.zaccept = s.zaccept ∧ t.fromz80 = s.fromz80 ∧ t.toz80 = s.toz80 ∧
      (t.mcuIrq = true → s.mcuIrq = true)) ∧
    (s.mcuIrq = true → t.mcuIrq = false →
      ∃ v k, i = .mwPortb v ∧ s.cfg.portbMap[k]? = some (some .readLatch) ∧ v.getLsbD k = false) ∧
    (i.agent ≠ .mcu → t.addr16 = s.addr16 ∧ t.portaIn = s.portaIn ∧ t.portaOut = s.portaOut)

/-! ### RESET and the PROM -/

/-- RESET (R370, R47): every element of the block takes its reset value, whatever the state was. The model's choices: the
configuration and what the host has laid out stay (log 12), and `lastProc` and `marked` do not survive (log 13). -/
def Obligations.ResetCreatesAllState : Prop :=
  ∀ s : State,
    ∃ t, exec .reset s = .next t ∧
      (∀ a, t.cram.read a = 0 ∧ t.spram.read a = 0 ∧ t.palram.read a = 0 ∧ t.colscroll.read a = 0) ∧
      (∀ n a, (t.vram.get n).read a = 0) ∧
      (∀ i, regGet t.scroll i = 0 ∧ regGet t.colorbank i = 0 ∧ regGet t.gfxptr i = 0 ∧ regGet t.coll i = 0) ∧
      t.priority = 0 ∧ t.viden = 0 ∧ t.banksw = 0 ∧
      (∀ b r, (t.tilePix.get b).get r = 0 ∧ (t.spatPix.get b).get r = 0) ∧
      (∀ n p, (t.pf.get n).get p = 0 ∧ (t.pscr.get n).get p = 0) ∧
      (∀ b i, t.tileIsDirty b i = true ∧ t.spatIsDirty b i = true) ∧ (∀ n c, t.cellIsDirty n c = true) ∧
      t.zready = false ∧ t.zaccept = true ∧ t.mcuIrq = false ∧ t.evq = [] ∧
      t.fromz80 = 0 ∧ t.toz80 = 0 ∧ t.portaIn = 0 ∧ t.portaOut = 0 ∧ t.addr16 = 0 ∧ t.protValue = 0 ∧
      t.draworder = promDecode s.cfg ∧
      t.cfg = s.cfg ∧ t.trace = s.trace ∧ t.busIn = s.busIn ∧ t.portIn = s.portIn ∧
      (∀ s' : State, s'.cfg = s.cfg → s'.trace = s.trace → s'.busIn = s.busIn → s'.portIn = s.portIn →
        s'.draws = s.draws → exec .reset s' = .next t)

/-- The PROM decode (R230) as arithmetic: for each code c the layers are resolved from step 3 down to step 0, each by
the PROM entry at `16 * (c & 0x0F) + mask`, bits 3:2 of it for codes 16..31 and bits 1:0 for codes 0..15, where the mask
holds the bits of the layers resolved before. -/
def Obligations.PromDecodeResolves : Prop :=
  ∀ (cfg : Config) (c : Nat), c < 32 →
    let row := (promDecode cfg).get c
    let named : Nat → Nat := fun mask => (promEntry cfg (16 * (c % 16) + mask)).toNat / (if 16 ≤ c then 4 else 1) % 4
    let bit : Layer → Nat := fun l => 2 ^ l.number
    row.step3.number = named 0 ∧
    row.step2.number = named (bit row.step3) ∧
    row.step1.number = named (bit row.step3 ||| bit row.step2) ∧
    row.step0.number = named (bit row.step3 ||| bit row.step2 ||| bit row.step1)

/-- The source's fixture as R232 derives it from eight PROM entries: code 0 draws back, middle, front, sprites and code 1
draws middle, back, front, sprites. -/
def Obligations.PromFixtureRows : Prop :=
  ∀ cfg : Config,
    (∀ a v, (a, v) ∈ [((0x00 : Nat), (0 : Nat)), (0x01, 1), (0x03, 2), (0x07, 3), (0x10, 0), (0x11, 1), (0x13, 3), (0x1B, 2)] →
      (promEntry cfg a).toNat % 4 = v) →
    ((promDecode cfg).get 0).layers = [.back, .middle, .front, .sprites] ∧
    ((promDecode cfg).get 1).layers = [.middle, .back, .front, .sprites]

/-! ### FRAME -/

/-- FRAME completes wherever it is not refused (R240): every dirty bit is clear afterwards, no collision bit is cleared,
and nothing outside the caches, the bitmaps, the collision registers and the outputs changes: no register, no RAM, no
bridge state, not `EVQ`. -/
def Obligations.FrameCompletes : Prop :=
  ∀ s : State, ¬(s.cfg.objexMode = .refuse ∧ s.viden.getLsbD 2 = true) →
    ∃ t, exec .frame s = .next t ∧
      (∀ b i, t.tileIsDirty b i = false ∧ t.spatIsDirty b i = false) ∧ (∀ n c, t.cellIsDirty n c = false) ∧
      (∀ r i, r < 4 → (regGet s.coll r).getLsbD i = true → (regGet t.coll r).getLsbD i = true) ∧
      t = { s with
        tilePix := t.tilePix
        spatPix := t.spatPix
        tileDirty := t.tileDirty
        spatDirty := t.spatDirty
        cellDirty := t.cellDirty
        pf := t.pf
        pscr := t.pscr
        coll := t.coll
        out := t.out }

/-- FRAME with `OBJEX` set under `OBJEX_MODE = refuse` is refused by name (R240 step 0, R388). -/
def Obligations.FrameRefusedWithObjex : Prop :=
  ∀ s : State, s.cfg.objexMode = .refuse → s.viden.getLsbD 2 = true → exec .frame s = .refused .objexSet

/-- The decode of FRAME (R170, R171, R172) under R5's plane weights and bit order: a dirty tile becomes the unpack of its
24 bytes, a dirty pattern that of its 96 bytes, every other entry is kept. -/
def Obligations.FrameDecodesDirty : Prop :=
  ∀ s t : State, exec .frame s = .next t → s.cfg.planeWeight = ⟨0, 1, 2⟩ → s.cfg.rowBitOrder = .msbFirst →
    let pen : Nat → Nat → Nat := fun a k =>
      4 * ((s.cram.read (a + 0x1000)).getLsbD k).toNat + 2 * ((s.cram.read (a + 0x0800)).getLsbD k).toNat
        + ((s.cram.read a).getLsbD k).toNat
    (∀ b i r x, i < 256 → r < 8 → x < 8 →
      (t.tilePen b i r x).toNat =
        if s.tileIsDirty b i then pen (0x1800 * b.number + 8 * i + r) (7 - x) else (s.tilePen b i r x).toNat) ∧
    (∀ b i r x, i < 64 → r < 16 → x < 16 →
      (t.spatPen b i r x).toNat =
        if s.spatIsDirty b i then
          pen (0x1800 * b.number + 32 * i + (r % 8 + 8 * (x / 8) + 16 * (r / 8))) (7 - x % 8)
        else (s.spatPen b i r x).toNat)

/-- The cell redraw of FRAME (R176, R190, R191): a cell that is dirty, or that `TILE_PROPAGATE` marks because its tile was
re-decoded under the plane's bank, is drawn at its place, mirrored under the global flips, with 0 for pen 0 and
`8 * colour + pen` otherwise; every other cell keeps its pixels. -/
def Obligations.FrameRedrawsDirtyCells : Prop :=
  ∀ s t : State, exec .frame s = .next t →
    ∀ n c j i, c < 1024 → j < 8 → i < 8 →
      let col := if s.gfx then 31 - c % 32 else c % 32
      let row := if s.gfy then 31 - c / 32 else c / 32
      let tile := ((s.vram.get n).read c).toNat
      let pen := t.tilePen (s.pbank n) tile (if s.gfy then 7 - j else j) (if s.gfx then 7 - i else i)
      (t.pf.get n).px (8 * col + i) (8 * row + j) =
        if s.cellIsDirty n c || (s.cfg.tilePropagate && s.tileIsDirty (s.pbank n) tile) then
          (if pen = 0 then 0 else BitVec.ofNat 6 (8 * (s.pcol n).toNat + pen.toNat))
        else (s.pf.get n).px (8 * col + i) (8 * row + j)

/-- The picture of FRAME (R235, R236, R237): each pixel of `VISIBLE` is that of the last-drawn enabled layer that is opaque
there, or the background `8 * PCOL[2]`; no pixel outside `VISIBLE` is written; the colour of each index is `RGB` (R233),
here as the sum of the weights whose bits of the palette pair are 0. -/
def Obligations.FramePictureIsLastOpaqueLayer : Prop :=
  ∀ s t : State, exec .frame s = .next t →
    ∃ f, t.out = { Outputs.none with frame := some f } ∧
      (∀ x y, x < 256 → y < 256 → f.surface.px x y =
        if t.cfg.visible.xFirst ≤ x ∧ x ≤ t.cfg.visible.xLast ∧ t.cfg.visible.yFirst ≤ y ∧ y ≤ t.cfg.visible.yLast
        then some (t.picture x y) else none) ∧
      t.background.toNat = 8 * (t.pcol .back).toNat ∧
      (∀ i, i < 64 →
        let e := t.palram.read (2 * i)
        let o := t.palram.read (2 * i + 1)
        let w := t.cfg.palWeight
        let inv : Byte → Nat → Nat := fun d k => if d.getLsbD k then 0 else 1
        f.colours.get i = t.rgb i ∧
        t.rgb i = ⟨w.w0 * inv o 6 + w.w1 * inv o 7 + w.w2 * inv e 0,
          w.w0 * inv o 3 + w.w1 * inv o 4 + w.w2 * inv o 5,
          w.w0 * inv o 0 + w.w1 * inv o 1 + w.w2 * inv o 2⟩)

/-- The scratch copy of FRAME (R195, R197, R387): where a plane is enabled and named by the draw order in use, its scratch
buffer takes the scrolled plane inside the boxes of the active sprites; everywhere else it keeps its content. -/
def Obligations.FrameScratchCopy : Prop :=
  ∀ s t : State, exec .frame s = .next t →
    ∀ (n : Plane) (x y : Nat), x < 256 → y < 256 →
      ((t.pen n = true ∧ n.layer ∈ t.drawRow.layers ∧
          ∃ i < 32, t.slotOn i = true ∧ t.slotBx i ≤ (x : Int) ∧ (x : Int) ≤ t.slotBx i + 15 ∧
            t.slotBy i ≤ (y : Int) ∧ (y : Int) ≤ t.slotBy i + 15) →
        (t.pscr.get n).px x y = t.planePixel n x y) ∧
      (¬(t.pen n = true ∧ n.layer ∈ t.drawRow.layers ∧
          ∃ i < 32, t.slotOn i = true ∧ t.slotBx i ≤ (x : Int) ∧ (x : Int) ≤ t.slotBx i + 15 ∧
            t.slotBy i ≤ (y : Int) ∧ (y : Int) ≤ t.slotBy i + 15) →
        (t.pscr.get n).px x y = (s.pscr.get n).px x y)

/-- Sprite-sprite collisions (R260, R261, R262, R266): after a FRAME the bit of a slot is set exactly when it was set
before, or the tests run and the slot is active and has a co-opaque pixel with another active slot. -/
def Obligations.FrameSpriteCollisions : Prop :=
  ∀ s t : State, exec .frame s = .next t →
    ∀ i, i < 32 → Config.inHole i = false →
      (spriteBit t.coll i = true ↔
        spriteBit s.coll i = true ∨
          (¬(t.cfg.collNeedsSpritesOn = true ∧ t.sen = false) ∧ t.slotOn i = true ∧
            ∃ j < 32, j ≠ i ∧ t.slotOn j = true ∧ t.coOpaque i j))

/-- Sprite-plane collisions (R260, R264, R265, R266): after a FRAME the bit of a plane is set exactly when it was set
before, or the tests run, the plane is enabled, and an opaque pixel of an active slot lies on an opaque pixel of the
plane's scratch buffer; also for a plane the draw order leaves out, as R265 says against U6 (log 28). -/
def Obligations.FramePlaneCollisions : Prop :=
  ∀ s t : State, exec .frame s = .next t →
    ∀ n, (planeBit t.coll n = true ↔
      planeBit s.coll n = true ∨
        (¬(t.cfg.collNeedsSpritesOn = true ∧ t.sen = false) ∧ t.pen n = true ∧
          ∃ i < 32, t.slotOn i = true ∧ t.overPlane i n))

/-- The source's symmetry property (R263): two active slots with a co-opaque pixel both have their bit set after a FRAME
in which the tests run. -/
def Obligations.SpriteCollisionIsSymmetric : Prop :=
  ∀ s t : State, exec .frame s = .next t → ¬(t.cfg.collNeedsSpritesOn = true ∧ t.sen = false) →
    ∀ i j, i < 32 → j < 32 → i ≠ j → t.slotOn i = true → t.slotOn j = true → t.coOpaque i j →
      spriteBit t.coll i = true ∧ spriteBit t.coll j = true

/-- Two FRAMEs with no event between them (R240, R266): the second produces the same picture, leaves the collision
registers as they are, and in fact changes nothing at all. -/
def Obligations.FrameTwiceIsFrameOnce : Prop :=
  ∀ s t : State, exec .frame s = .next t → exec .frame t = .next t

/-- The hole (R33, R214, R385): whatever the bytes 0x40..0x5F of sprite RAM hold, a FRAME does the same to everything
else: the picture, the scratch buffers and the collision registers do not see them. -/
def Obligations.HoleIsNeverSeen : Prop :=
  ∀ (s : State) (m : Memory), (∀ a, ¬(0x40 ≤ a ∧ a ≤ 0x5F) → m.read a = s.spram.read a) →
    ∀ t, exec .frame s = .next t → exec .frame { s with spram := m } = .next { t with spram := m }

/-- `OBJEX` under `ignored` (R388): flipping `VIDEN[2]` changes nothing a FRAME does. -/
def Obligations.ObjexIgnored : Prop :=
  ∀ s t : State, s.cfg.objexMode = .ignored → exec .frame s = .next t →
    exec .frame { s with viden := s.viden ^^^ 0x04 } = .next { t with viden := t.viden ^^^ 0x04 }

/-- The palette reaches only the colours (R141, R260): with another palette RAM a FRAME leaves the same state, the same
surface of palette indices and the same collision registers. -/
def Obligations.PaletteReachesOnlyColours : Prop :=
  ∀ (s t : State) (m : Memory), exec .frame s = .next t →
    ∃ f g, t.out.frame = some f ∧ g.surface = f.surface ∧
      exec .frame { s with palram := m } =
        .next { t with palram := m, out := { Outputs.none with frame := some g } }

/-! ### Palette, scroll and sprite positions -/

/-- The source's palette property (R234): writing a pair of 0x00 gives white and a pair of 0xFF black, for every entry
and any weights that sum to 255; and no other entry's colour changes (R141). -/
def Obligations.PaletteBoundaryColours : Prop :=
  ∀ (s : State) (i : Nat), i < 64 → s.palram.wf →
    s.cfg.palWeight.w0 + s.cfg.palWeight.w1 + s.cfg.palWeight.w2 = 255 →
    (∃ t u, exec (.cwPalram (2 * i) 0x00) s = .next t ∧ exec (.cwPalram (2 * i + 1) 0x00) t = .next u ∧
      u.rgb i = ⟨255, 255, 255⟩ ∧ ∀ j, j ≠ i → u.rgb j = s.rgb j) ∧
    (∃ t u, exec (.cwPalram (2 * i) 0xFF) s = .next t ∧ exec (.cwPalram (2 * i + 1) 0xFF) t = .next u ∧
      u.rgb i = ⟨0, 0, 0⟩ ∧ ∀ j, j ≠ i → u.rgb j = s.rgb j)

/-- The scroll (R193, R194): `H[n]` and `V[n][c]` as arithmetic on the scroll bytes and the global flips, for any constants;
`PlanePixel(n, x, y)` as the pixel of the plane's bitmap they move to `(x, y)`, modulo 256; and with R5's constants the
ranges `H` in -240..267 and `V` in -510..510. -/
def Obligations.ScrollRanges : Prop :=
  ∀ (s : State) (n : Plane),
    let across : Int := (regGet s.scroll (2 * n.number)).toNat
    let down : Int := (regGet s.scroll (2 * n.number + 1)).toNat
    let column : Nat → Int := fun i => (s.colscroll.read (32 * n.number + i)).toNat
    let coarse := 8 * (across / 8)
    s.scrollH n = (if s.viden.getLsbD 0 then coarse else -coarse) + (across + s.cfg.scrollF1.get n) % 8
      + s.cfg.scrollF2.get n ∧
    (∀ i, i < 32 →
      if s.viden.getLsbD 1 then s.scrollV n (31 - i) = column i + down else s.scrollV n i = -column i - down) ∧
    (∀ x y : Nat,
      let xs := ((x - s.scrollH n) % 256).toNat
      s.planePixel n x y = (s.pf.get n).px xs ((y - s.scrollV n (xs / 8)) % 256).toNat) ∧
    (s.cfg.scrollF1 = ⟨3, 1, -1⟩ → s.cfg.scrollF2 = ⟨8, 10, 12⟩ →
      -240 ≤ s.scrollH n ∧ s.scrollH n ≤ 267 ∧ ∀ c, -510 ≤ s.scrollV n c ∧ s.scrollV n c ≤ 510)

/-- The sprite scan with R5's functions (R210): a slot is active exactly when it is outside the hole and its y byte is
below 240; then `UX` is in -15..240 and `UY` in 1..240, and the drawn origin is mirrored under the global flips. -/
def Obligations.SpriteScanPositions : Prop :=
  ∀ (s : State) (i : Nat),
    s.cfg.sprSx = Tab.tabulate 8 Config.standardSx → s.cfg.sprSy = Tab.tabulate 8 Config.standardSy →
    s.cfg.activeTest = Tab.tabulate 8 Config.standardActive →
    s.cfg.sprMirrorX = 238 → s.cfg.sprMirrorY = 242 →
    (s.slotOn i = true ↔ ¬(0x10 ≤ i ∧ i ≤ 0x17) ∧ (s.spram.read (4 * i + 1)).toNat < 240) ∧
    (s.slotUx i = (((s.spram.read (4 * i)).toNat + 13) % 256 : Nat) - 15) ∧ -15 ≤ s.slotUx i ∧ s.slotUx i ≤ 240 ∧
    (s.slotUy i = 240 - ((s.spram.read (4 * i + 1)).toNat : Int)) ∧
    (s.slotOn i = true → 1 ≤ s.slotUy i ∧ s.slotUy i ≤ 240) ∧
    s.slotBx i = (if s.viden.getLsbD 0 then 238 - s.slotUx i else s.slotUx i) ∧
    s.slotBy i = (if s.viden.getLsbD 1 then 242 - s.slotUy i else s.slotUy i)

/-! ### Rules over every transaction -/

/-- Every transaction that the variant and `OBJEX_MODE` admit completes in one event (R154, R340), and one they do not is
refused: no transaction can fault. -/
def Obligations.EveryAdmittedTransactionCompletes : Prop :=
  ∀ (i : Instr) (s : State),
    (s.admits i = true → ∃ t, exec i s = .next t) ∧ (s.admits i = false → ∃ r, exec i s = .refused r)

/-- `COLL` between FRAMEs (R34, R156, R268 (3)): no transaction but FRAME sets a collision bit, and none but the
clear-write and RESET clears one. -/
def Obligations.CollisionBitsAccumulate : Prop :=
  ∀ (i : Instr) (s t : State), exec i s = .next t → ∀ r k, r < 4 →
    (i ≠ .frame → (regGet t.coll r).getLsbD k = true → (regGet s.coll r).getLsbD k = true) ∧
    ((∀ v, i ≠ .cwCollclr v) → i ≠ .reset → (regGet s.coll r).getLsbD k = true → (regGet t.coll r).getLsbD k = true)

/-- Dirty monotonicity (R156, R86): no transaction but FRAME clears a dirty bit. -/
def Obligations.DirtyBitsOnlyGrow : Prop :=
  ∀ (i : Instr) (s t : State), exec i s = .next t → i ≠ .frame →
    (∀ b k, s.tileIsDirty b k = true → t.tileIsDirty b k = true) ∧
    (∀ b k, s.spatIsDirty b k = true → t.spatIsDirty b k = true) ∧
    (∀ n c, s.cellIsDirty n c = true → t.cellIsDirty n c = true)

/-- Until the next FRAME or RESET the bitmaps (R155), the caches (R22) and the draw order (R31, R231) do not change. -/
def Obligations.BitmapsChangeOnlyInFrame : Prop :=
  ∀ (i : Instr) (s t : State), exec i s = .next t → i ≠ .frame → i ≠ .reset →
    t.tilePix = s.tilePix ∧ t.spatPix = s.spatPix ∧ t.pf = s.pf ∧ t.pscr = s.pscr ∧ t.draworder = s.draworder

/-- The MCU's rights (R350): an event of the MCU changes no video state at all: only the queue, the interrupt line, its own
latches and address (R318), and what the host sees. -/
def Obligations.McuEventsLeaveVideoAlone : Prop :=
  ∀ (i : Instr) (s t : State), exec i s = .next t → i.agent = .mcu →
    t = { s with
      evq := t.evq
      mcuIrq := t.mcuIrq
      portaIn := t.portaIn
      portaOut := t.portaOut
      addr16 := t.addr16
      busIn := t.busIn
      draws := t.draws
      out := t.out }

/-- The configuration is fixed for a session (R44, R290): no event changes it. -/
def Obligations.ConfigurationNeverChanges : Prop :=
  ∀ s t : State, step s = .next t → t.cfg = s.cfg

/-! ### Invariants that every step keeps -/

/-- THE BLOCK'S INVARIANT IS KEPT BY EVERY STEP: the RAMs keep their canonical form and size, a cache entry is valid iff
not dirty (R174), the draw order is the decode of the PROM (R31, R231), and `COLL[3] & 0xF8 = 0` (R268 (1)). -/
def Obligations.StepKeepsInv : Prop :=
  ∀ s t : State, s.Inv → step s = .next t → t.Inv

/-- The block's invariant holds right after reset. -/
def Obligations.ResetHasInv : Prop := State.reset.Inv

/-- THE DIRTY-REGION MECHANISM IS INVISIBLE UNDER `TILE_PROPAGATE` (R198): every step keeps it so that every clean cell
of every plane shows what a redraw of it would draw now. -/
def Obligations.StepKeepsPlanesCurrent : Prop :=
  ∀ s t : State, s.cfg.tilePropagate = true → s.PlanesCurrent → step s = .next t → t.PlanesCurrent

/-- After a FRAME under `TILE_PROPAGATE`, and under any setting when every cell was dirty, each plane's bitmap is the
redraw of all its cells from the present state (R198). -/
def Obligations.FrameMakesPlanesCurrent : Prop :=
  ∀ s t : State, exec .frame s = .next t →
    (s.cfg.tilePropagate = true ∧ s.PlanesCurrent) ∨ (∀ n c, c < 1024 → s.cellIsDirty n c = true) →
    ∀ n c, c < 1024 → t.CellCurrent n c

/-- Right after reset every plane is current, since every cell is dirty. -/
def Obligations.ResetHasPlanesCurrent : Prop := State.reset.PlanesCurrent

/-! ### Fields -/

/-- The fields the statements on FRAME speak of, as arithmetic on the bytes: the flips, the pattern (R33, R212) and the
colour code (R213) of a sprite slot, the pen of a slot's pattern under any flips as an entry of `SPAT_PIX`; the colour code
and the bank of each plane (R29); the bits of `VIDEN` (R35); and the palette index of a colour and a pen (R12). -/
def Obligations.SpriteAndColourFields : Prop :=
  ∀ (s : State) (i : Nat),
    let flags := s.spram.read (4 * i + 2)
    let code := s.spram.read (4 * i + 3)
    let c0 := regGet s.colorbank 0
    let c1 := regGet s.colorbank 1
    let bank : Bool → Bank := fun b => if b then .bank1 else .bank0
    s.sfx i = flags.getLsbD 0 ∧ s.sfy i = flags.getLsbD 1 ∧
    (s.spriteColour i).toNat = 2 * (c1.toNat / 16 % 4) + flags.toNat / 4 % 2 ∧
    (∀ fx fy j k, s.spritePen (s.sprite i) fx fy j k =
      s.spatPen (bank (code.getLsbD 6)) (code.toNat % 64) (if fy then 15 - j else j) (if fx then 15 - k else k)) ∧
    (s.pcol .front).toNat = c0.toNat % 8 ∧ (s.pcol .middle).toNat = c0.toNat / 16 % 8 ∧
    (s.pcol .back).toNat = c1.toNat % 8 ∧
    s.pbank .front = bank (c0.getLsbD 3) ∧ s.pbank .middle = bank (c0.getLsbD 7) ∧ s.pbank .back = bank (c1.getLsbD 3) ∧
    s.gfx = s.viden.getLsbD 0 ∧ s.gfy = s.viden.getLsbD 1 ∧ s.objex = s.viden.getLsbD 2 ∧ s.sen = s.viden.getLsbD 7 ∧
    s.pen .front = s.viden.getLsbD 4 ∧ s.pen .middle = s.viden.getLsbD 5 ∧ s.pen .back = s.viden.getLsbD 6 ∧
    (∀ (k : Colour) (p : Pen), (palIdx k p).toNat = 8 * k.toNat + p.toNat)
end

