-- ==== Sys2Proof/Laws/Memory.lean ====
section
/-! SUPPORT. The laws of the byte memories: read after write, the canonical form kept by every operation, and equality of
memories that read alike. -/

namespace Sys2Proof.Machine

/-- A canonical memory reads as the reset contents below its first entry. -/
theorem Memory.read_below {m : Memory} {a : Nat} (h : ∀ c ∈ m, a < c.1) : m.read a = Memory.unlisted := by
  induction m with
  | nil => rfl
  | cons c m ih =>
    have hc : c.1 ≠ a := by have := h c (by simp); omega
    simp only [Memory.read, hc, if_false]
    exact ih fun d hd => h d (by simp [hd])

theorem Memory.wf_tail {c : Host.Cell} {m : Memory} (h : Memory.wf (c :: m)) : Memory.wf m :=
  ⟨(List.pairwise_cons.1 h.1).2, fun d hd => h.2 d (by simp [hd])⟩

theorem Memory.lt_of_mem_tail {c : Host.Cell} {m : Memory} (h : Memory.wf (c :: m)) : ∀ d ∈ m, c.1 < d.1 :=
  (List.pairwise_cons.1 h.1).1

/-- Reading the byte just written gives the value written. -/
theorem Memory.read_write_same {m : Memory} (h : m.wf) (a : Nat) (v : Byte) : (m.write a v).read a = v := by
  induction m with
  | nil => by_cases hv : v = Memory.unlisted <;> simp [Memory.write, Memory.read, hv]
  | cons c m ih =>
    obtain ⟨k, w⟩ := c
    have below : a ≤ k → Memory.read m a = Memory.unlisted := fun hk =>
      Memory.read_below fun d hd => by have := Memory.lt_of_mem_tail h d hd; simp only at this; omega
    by_cases h1 : a < k
    · have hk : k ≠ a := by omega
      by_cases hv : v = Memory.unlisted <;> simp [Memory.write, Memory.read, h1, hv, hk, below h1.le]
    · by_cases h2 : a = k
      · subst h2
        by_cases hv : v = Memory.unlisted <;> simp [Memory.write, Memory.read, hv, below le_rfl]
      · have hk : k ≠ a := by omega
        simp [Memory.write, Memory.read, h1, h2, hk, ih (Memory.wf_tail h)]

/-- A write leaves every other byte alone. -/
theorem Memory.read_write_ne (m : Memory) {a b : Nat} (h : b ≠ a) (v : Byte) : (m.write a v).read b = m.read b := by
  induction m with
  | nil =>
    have h' : a ≠ b := fun e => h e.symm
    by_cases hv : v = Memory.unlisted <;> simp [Memory.write, Memory.read, hv, h']
  | cons c m ih =>
    obtain ⟨k, w⟩ := c
    have h' : a ≠ b := fun e => h e.symm
    by_cases h1 : a < k
    · by_cases hv : v = Memory.unlisted <;> simp [Memory.write, Memory.read, h1, hv, h']
    · by_cases h2 : a = k
      · subst h2
        by_cases hv : v = Memory.unlisted <;> simp [Memory.write, Memory.read, hv, h']
      · simp only [Memory.write, h1, h2, if_false, Memory.read, ih]

/-- Every entry of a written memory is the new byte or an old entry. -/
theorem Memory.mem_write {m : Memory} {a : Nat} {v : Byte} {c : Host.Cell} (h : c ∈ m.write a v) :
    (c = (a, v) ∧ v ≠ Memory.unlisted) ∨ c ∈ m := by
  induction m with
  | nil =>
    by_cases hv : v = Memory.unlisted <;> simp_all [Memory.write]
  | cons d m ih =>
    obtain ⟨k, w⟩ := d
    simp only [Memory.write] at h
    split at h
    · split at h
      · exact .inr h
      · rcases List.mem_cons.1 h with h | h
        · exact .inl ⟨h, ‹_›⟩
        · exact .inr h
    · split at h
      · split at h
        · exact .inr (List.mem_cons_of_mem _ h)
        · rcases List.mem_cons.1 h with h | h
          · exact .inl ⟨h, ‹_›⟩
          · exact .inr (List.mem_cons_of_mem _ h)
      · rcases List.mem_cons.1 h with h | h
        · exact .inr (by simp [h])
        · exact (ih h).imp id fun h => List.mem_cons_of_mem _ h

/-- A write keeps the canonical form. -/
theorem Memory.write_wf {m : Memory} (h : m.wf) (a : Nat) (v : Byte) : (m.write a v).wf := by
  refine ⟨?_, fun c hc => ?_⟩
  · induction m with
    | nil => by_cases hv : v = Memory.unlisted <;> simp [Memory.write, hv]
    | cons d m ih =>
      obtain ⟨k, w⟩ := d
      have tail := Memory.lt_of_mem_tail h
      have sorted := (List.pairwise_cons.1 h.1).2
      simp only [Memory.write]
      split
      · split
        · exact h.1
        · refine List.pairwise_cons.2 ⟨fun e he => ?_, h.1⟩
          rcases List.mem_cons.1 he with he | he
          · rw [he]; exact ‹a < k›
          · exact lt_trans ‹a < k› (tail e he)
      · split
        · split
          · exact sorted
          · have hk : a = k := ‹_›
            exact List.pairwise_cons.2 ⟨fun e he => by rw [hk]; exact tail e he, sorted⟩
        · refine List.pairwise_cons.2 ⟨fun e he => ?_, ih (Memory.wf_tail h)⟩
          rcases Memory.mem_write he with ⟨he, -⟩ | he
          · rw [he]; show k < a; omega
          · exact tail e he
  · rcases Memory.mem_write hc with ⟨hc, hv⟩ | hc
    · rw [hc]; exact hv
    · exact h.2 c hc

/-- A write inside a RAM lists nothing outside it. -/
theorem Memory.write_within {m : Memory} {size : Nat} (h : m.within size) {a : Nat} (ha : a < size) (v : Byte) :
    (m.write a v).within size := fun c hc => by
  rcases Memory.mem_write hc with ⟨hc, -⟩ | hc
  · rw [hc]; exact ha
  · exact h c hc

/-- A canonical memory reads something else than the reset contents at every entry. -/
theorem Memory.read_of_mem {m : Memory} (h : m.wf) {c : Host.Cell} (hc : c ∈ m) : m.read c.1 = c.2 := by
  induction m with
  | nil => simp at hc
  | cons d m ih =>
    rcases List.mem_cons.1 hc with hc | hc
    · subst hc; simp [Memory.read]
    · have := Memory.lt_of_mem_tail h c hc
      simp [Memory.read, show d.1 ≠ c.1 by omega, ih (Memory.wf_tail h) hc]

/-- Canonical memories that read alike are equal data. -/
theorem Memory.eq_of_read_eq {m n : Memory} (hm : m.wf) (hn : n.wf) (h : ∀ a, m.read a = n.read a) : m = n := by
  have sub : ∀ {p q : Memory}, p.wf → q.wf → (∀ a, p.read a = q.read a) → ∀ c ∈ p, c ∈ q := by
    intro p q hp hq hr c hc
    by_contra hcq
    have h1 := Memory.read_of_mem hp hc
    have h2 : q.read c.1 = c.2 := by rw [← hr]; exact h1
    have h3 : q.read c.1 = Memory.unlisted ∨ (c.1, q.read c.1) ∈ q := by
      clear h1 h2 hr hc hcq hq
      induction q with
      | nil => exact .inl rfl
      | cons d q ih =>
        obtain ⟨k, w⟩ := d
        by_cases hk : k = c.1
        · right; simp [Memory.read, hk]
        · simp only [Memory.read, hk, if_false]
          exact ih.imp id fun h => List.mem_cons_of_mem _ h
    rcases h3 with h3 | h3
    · exact hp.2 c hc (h2 ▸ h3)
    · rw [h2] at h3; exact hcq h3
  have irr : ∀ {p : Memory}, p.wf → p.Pairwise (fun c d => c.1 < d.1) := fun hp => hp.1
  refine List.Perm.eq_of_pairwise (le := fun c d : Host.Cell => c.1 < d.1) ?_ (irr hm) (irr hn) ?_
  · intro c d _ _ h1 h2; omega
  · have nodup : ∀ {p : Memory}, p.wf → p.Nodup := fun hp => hp.1.imp fun {c d} hlt heq => by subst heq; omega
    exact (List.perm_ext_iff_of_nodup (nodup hm) (nodup hn)).2
      fun c => ⟨sub hm hn h c, sub hn hm (fun a => (h a).symm) c⟩

/-- The empty memory is canonical. -/
theorem Memory.nil_wf : Memory.wf [] := ⟨List.Pairwise.nil, by simp⟩

/-- Reading a register just written gives the value written. -/
theorem regGet_regSet_same {n : Nat} (r : Vector Byte n) {i : Nat} (h : i < n) (v : Byte) :
    regGet (regSet r i v) i = v := by
  simp [regGet, regSet, h]

/-- Writing a register leaves the others alone. -/
theorem regGet_regSet_ne {n : Nat} (r : Vector Byte n) {i j : Nat} (h : j ≠ i) (v : Byte) :
    regGet (regSet r i v) j = regGet r j := by
  have h' : i ≠ j := fun e => h e.symm
  simp [regGet, regSet, h']

/-- Registers at reset hold 0. -/
@[simp] theorem regGet_replicate (n i : Nat) : regGet (Vector.replicate n (0 : Byte)) i = 0 := by
  by_cases h : i < n <;> simp [regGet, h]

end Sys2Proof.Machine
end

