-- ==== Sys2Proof/Laws/Shapes.lean ====
section
/-! SUPPORT. The laws of the shapes: banks, planes, tables and bitmaps. -/

namespace Sys2Proof.Machine

@[simp] theorem PerBank.get_ofFn {α : Type} (f : Bank → α) (b : Bank) : (PerBank.ofFn f).get b = f b := by
  cases b <;> rfl

@[simp] theorem PerPlane.get_ofFn {α : Type} (f : Plane → α) (n : Plane) : (PerPlane.ofFn f).get n = f n := by
  cases n <;> rfl

theorem PerBank.get_set {α : Type} (p : PerBank α) (b b' : Bank) (v : α) :
    (p.set b v).get b' = if b' = b then v else p.get b' := by simp [PerBank.set]

theorem PerPlane.get_set {α : Type} (p : PerPlane α) (n n' : Plane) (v : α) :
    (p.set n v).get n' = if n' = n then v else p.get n' := by simp [PerPlane.set]

@[ext] theorem PerBank.ext_get {α : Type} {p q : PerBank α} (h : ∀ b, p.get b = q.get b) : p = q := by
  have h0 := h .bank0
  have h1 := h .bank1
  cases p; cases q; simp_all [PerBank.get]

@[ext] theorem PerPlane.ext_get {α : Type} {p q : PerPlane α} (h : ∀ n, p.get n = q.get n) : p = q := by
  have h0 := h .front
  have h1 := h .middle
  have h2 := h .back
  cases p; cases q; simp_all [PerPlane.get]

@[simp] theorem Tab.get_fill {α : Type} (v : α) (n i : Nat) : (Tab.fill v n).get i = v := by
  induction n with
  | zero => rfl
  | succ n ih => simp [Tab.fill, Tab.get, ih]

/-- Bit n splits an index below `2 ^ (n + 1)`. -/
theorem mod_two_pow_succ_of_testBit (i n : Nat) :
    i % 2 ^ (n + 1) = if i.testBit n then 2 ^ n + i % 2 ^ n else i % 2 ^ n := by
  have h : i.testBit n = decide (i / 2 ^ n % 2 = 1) := Nat.testBit_eq_decide_div_mod_eq
  have hm : i % 2 ^ (n + 1) = i % 2 ^ n + 2 ^ n * (i / 2 ^ n % 2) := by rw [Nat.pow_succ, Nat.mod_mul]
  rcases Nat.mod_two_eq_zero_or_one (i / 2 ^ n) with h2 | h2 <;> simp [h, h2, hm, Nat.add_comm]

/-- A table answers its function, the index taken modulo its size. -/
theorem Tab.get_tabulate_mod {α : Type} (n : Nat) (f : Nat → α) (i : Nat) :
    (Tab.tabulate n f).get i = f (i % 2 ^ n) := by
  induction n generalizing f with
  | zero => simp [Tab.tabulate, Tab.get, Nat.mod_one]
  | succ n ih =>
    simp only [Tab.tabulate, Tab.get, ih, mod_two_pow_succ_of_testBit i n]
    split <;> rfl

theorem Tab.get_tabulate {α : Type} {n : Nat} (f : Nat → α) {i : Nat} (h : i < 2 ^ n) :
    (Tab.tabulate n f).get i = f i := by
  rw [Tab.get_tabulate_mod, Nat.mod_eq_of_lt h]

/-- The index of a table is taken modulo its size. -/
theorem Tab.get_mod {α : Type} {n : Nat} (t : Tab α n) (i : Nat) : t.get (i % 2 ^ n) = t.get i := by
  induction t generalizing i with
  | leaf v => simp [Tab.get]
  | @node n lo hi ihl ihh =>
    have hb : (i % 2 ^ (n + 1)).testBit n = i.testBit n := by simp [Nat.testBit_mod_two_pow]
    have hm : i % 2 ^ (n + 1) % 2 ^ n = i % 2 ^ n := Nat.mod_mod_of_dvd _ (by simp [Nat.pow_succ])
    simp only [Tab.get, hb]
    rw [← ihl, ← ihh, ← ihl i, ← ihh i, hm]

/-- Writing an entry changes that entry and no other. -/
theorem Tab.get_set {α : Type} {n : Nat} (t : Tab α n) (i j : Nat) (v : α) :
    (t.set i v).get j = if j % 2 ^ n = i % 2 ^ n then v else t.get j := by
  induction t with
  | leaf w => simp [Tab.set, Tab.get, Nat.mod_one]
  | @node n lo hi ihl ihh =>
    have hi' := mod_two_pow_succ_of_testBit i n
    have hj' := mod_two_pow_succ_of_testBit j n
    have h1 : i % 2 ^ n < 2 ^ n := Nat.mod_lt _ (Nat.two_pow_pos n)
    have h2 : j % 2 ^ n < 2 ^ n := Nat.mod_lt _ (Nat.two_pow_pos n)
    cases hib : i.testBit n <;> cases hjb : j.testBit n <;>
      simp only [hib, hjb, Bool.false_eq_true, if_true, if_false] at hi' hj' <;>
      simp only [Tab.set, Tab.get, hib, hjb, ihl, ihh, hi', hj', Bool.false_eq_true, if_true, if_false,
        Nat.add_left_cancel_iff]
    · rw [if_neg (by omega)]
    · rw [if_neg (by omega)]

theorem Tab.get_set_lt {α : Type} {n : Nat} (t : Tab α n) {i j : Nat} (hi : i < 2 ^ n) (hj : j < 2 ^ n) (v : α) :
    (t.set i v).get j = if j = i then v else t.get j := by
  rw [Tab.get_set, Nat.mod_eq_of_lt hi, Nat.mod_eq_of_lt hj]

/-- Equal entries, equal tables. -/
theorem Tab.ext_get {α : Type} {n : Nat} {t u : Tab α n} (h : ∀ i, i < 2 ^ n → t.get i = u.get i) : t = u := by
  induction t with
  | leaf v => cases u with | leaf w => simpa [Tab.get] using h 0 (by simp)
  | @node n lo hi ihl ihh =>
    cases u with
    | node lo' hi' =>
      have low : ∀ i, i < 2 ^ n → lo.get i = lo'.get i := fun i hlt => by
        have := h i (by rw [Nat.pow_succ]; omega)
        simpa [Tab.get, Nat.testBit_lt_two_pow hlt] using this
      have high : ∀ i, i < 2 ^ n → hi.get i = hi'.get i := fun i hlt => by
        have e := h (2 ^ n + i) (by rw [Nat.pow_succ]; omega)
        simp only [Tab.get, Nat.testBit_two_pow_add_eq, Nat.testBit_lt_two_pow hlt, Bool.not_false, if_true] at e
        rw [← Tab.get_mod hi, ← Tab.get_mod hi'] at e
        simpa [Nat.mod_eq_of_lt hlt] using e
      rw [ihl low, ihh high]

/-- The pixel of a bitmap is its function's value. -/
theorem Tab.px_bitmap {α : Type} (f : Nat → Nat → α) {x y : Nat} (hx : x < 256) (hy : y < 256) :
    (Tab.bitmap f).px x y = f x y := by
  rw [Tab.px, Tab.bitmap, Tab.get_tabulate _ (by omega)]
  congr 1 <;> omega

/-- Equal pixels, equal bitmaps. -/
theorem Tab.ext_px {α : Type} {t u : Tab α 16} (h : ∀ x y, x < 256 → y < 256 → t.px x y = u.px x y) : t = u := by
  refine Tab.ext_get fun i hi => ?_
  have hi' : i < 65536 := hi
  have := h (i % 256) (i / 256) (Nat.mod_lt _ (by omega)) (by omega)
  simpa [Tab.px, Nat.div_add_mod] using this

/-- Rebuilding a bitmap from its own pixels changes nothing. -/
theorem Tab.bitmap_px {α : Type} (t : Tab α 16) : Tab.bitmap (fun x y => t.px x y) = t :=
  Tab.ext_px fun _ _ hx hy => Tab.px_bitmap _ hx hy

end Sys2Proof.Machine
end

