-- ==== Sys2Proof/Laws/State.lean ====
section
/-! SUPPORT. One lemma per field of State for each named update, true by rfl. -/

namespace Sys2Proof.Machine

@[simp] theorem State.withOut_cfg (s : State) (o : Outputs) : (s.withOut o).cfg = s.cfg := rfl
@[simp] theorem State.withOut_cram (s : State) (o : Outputs) : (s.withOut o).cram = s.cram := rfl
@[simp] theorem State.withOut_tileDirty (s : State) (o : Outputs) : (s.withOut o).tileDirty = s.tileDirty := rfl
@[simp] theorem State.withOut_spatDirty (s : State) (o : Outputs) : (s.withOut o).spatDirty = s.spatDirty := rfl
@[simp] theorem State.withOut_tilePix (s : State) (o : Outputs) : (s.withOut o).tilePix = s.tilePix := rfl
@[simp] theorem State.withOut_spatPix (s : State) (o : Outputs) : (s.withOut o).spatPix = s.spatPix := rfl
@[simp] theorem State.withOut_vram (s : State) (o : Outputs) : (s.withOut o).vram = s.vram := rfl
@[simp] theorem State.withOut_cellDirty (s : State) (o : Outputs) : (s.withOut o).cellDirty = s.cellDirty := rfl
@[simp] theorem State.withOut_pf (s : State) (o : Outputs) : (s.withOut o).pf = s.pf := rfl
@[simp] theorem State.withOut_pscr (s : State) (o : Outputs) : (s.withOut o).pscr = s.pscr := rfl
@[simp] theorem State.withOut_scroll (s : State) (o : Outputs) : (s.withOut o).scroll = s.scroll := rfl
@[simp] theorem State.withOut_colscroll (s : State) (o : Outputs) : (s.withOut o).colscroll = s.colscroll := rfl
@[simp] theorem State.withOut_colorbank (s : State) (o : Outputs) : (s.withOut o).colorbank = s.colorbank := rfl
@[simp] theorem State.withOut_palram (s : State) (o : Outputs) : (s.withOut o).palram = s.palram := rfl
@[simp] theorem State.withOut_draworder (s : State) (o : Outputs) : (s.withOut o).draworder = s.draworder := rfl
@[simp] theorem State.withOut_priority (s : State) (o : Outputs) : (s.withOut o).priority = s.priority := rfl
@[simp] theorem State.withOut_spram (s : State) (o : Outputs) : (s.withOut o).spram = s.spram := rfl
@[simp] theorem State.withOut_coll (s : State) (o : Outputs) : (s.withOut o).coll = s.coll := rfl
@[simp] theorem State.withOut_viden (s : State) (o : Outputs) : (s.withOut o).viden = s.viden := rfl
@[simp] theorem State.withOut_banksw (s : State) (o : Outputs) : (s.withOut o).banksw = s.banksw := rfl
@[simp] theorem State.withOut_gfxptr (s : State) (o : Outputs) : (s.withOut o).gfxptr = s.gfxptr := rfl
@[simp] theorem State.withOut_zready (s : State) (o : Outputs) : (s.withOut o).zready = s.zready := rfl
@[simp] theorem State.withOut_zaccept (s : State) (o : Outputs) : (s.withOut o).zaccept = s.zaccept := rfl
@[simp] theorem State.withOut_fromz80 (s : State) (o : Outputs) : (s.withOut o).fromz80 = s.fromz80 := rfl
@[simp] theorem State.withOut_toz80 (s : State) (o : Outputs) : (s.withOut o).toz80 = s.toz80 := rfl
@[simp] theorem State.withOut_portaIn (s : State) (o : Outputs) : (s.withOut o).portaIn = s.portaIn := rfl
@[simp] theorem State.withOut_portaOut (s : State) (o : Outputs) : (s.withOut o).portaOut = s.portaOut := rfl
@[simp] theorem State.withOut_addr16 (s : State) (o : Outputs) : (s.withOut o).addr16 = s.addr16 := rfl
@[simp] theorem State.withOut_mcuIrq (s : State) (o : Outputs) : (s.withOut o).mcuIrq = s.mcuIrq := rfl
@[simp] theorem State.withOut_evq (s : State) (o : Outputs) : (s.withOut o).evq = s.evq := rfl
@[simp] theorem State.withOut_protValue (s : State) (o : Outputs) : (s.withOut o).protValue = s.protValue := rfl
@[simp] theorem State.withOut_trace (s : State) (o : Outputs) : (s.withOut o).trace = s.trace := rfl
@[simp] theorem State.withOut_busIn (s : State) (o : Outputs) : (s.withOut o).busIn = s.busIn := rfl
@[simp] theorem State.withOut_portIn (s : State) (o : Outputs) : (s.withOut o).portIn = s.portIn := rfl
@[simp] theorem State.withOut_draws (s : State) (o : Outputs) : (s.withOut o).draws = s.draws := rfl
@[simp] theorem State.withOut_lastProc (s : State) (o : Outputs) : (s.withOut o).lastProc = s.lastProc := rfl
@[simp] theorem State.withOut_marked (s : State) (o : Outputs) : (s.withOut o).marked = s.marked := rfl
@[simp] theorem State.withOut_out (s : State) (o : Outputs) : (s.withOut o).out = o := rfl

@[simp] theorem State.quiet_cfg (s : State) : (s.quiet).cfg = s.cfg := rfl
@[simp] theorem State.quiet_cram (s : State) : (s.quiet).cram = s.cram := rfl
@[simp] theorem State.quiet_tileDirty (s : State) : (s.quiet).tileDirty = s.tileDirty := rfl
@[simp] theorem State.quiet_spatDirty (s : State) : (s.quiet).spatDirty = s.spatDirty := rfl
@[simp] theorem State.quiet_tilePix (s : State) : (s.quiet).tilePix = s.tilePix := rfl
@[simp] theorem State.quiet_spatPix (s : State) : (s.quiet).spatPix = s.spatPix := rfl
@[simp] theorem State.quiet_vram (s : State) : (s.quiet).vram = s.vram := rfl
@[simp] theorem State.quiet_cellDirty (s : State) : (s.quiet).cellDirty = s.cellDirty := rfl
@[simp] theorem State.quiet_pf (s : State) : (s.quiet).pf = s.pf := rfl
@[simp] theorem State.quiet_pscr (s : State) : (s.quiet).pscr = s.pscr := rfl
@[simp] theorem State.quiet_scroll (s : State) : (s.quiet).scroll = s.scroll := rfl
@[simp] theorem State.quiet_colscroll (s : State) : (s.quiet).colscroll = s.colscroll := rfl
@[simp] theorem State.quiet_colorbank (s : State) : (s.quiet).colorbank = s.colorbank := rfl
@[simp] theorem State.quiet_palram (s : State) : (s.quiet).palram = s.palram := rfl
@[simp] theorem State.quiet_draworder (s : State) : (s.quiet).draworder = s.draworder := rfl
@[simp] theorem State.quiet_priority (s : State) : (s.quiet).priority = s.priority := rfl
@[simp] theorem State.quiet_spram (s : State) : (s.quiet).spram = s.spram := rfl
@[simp] theorem State.quiet_coll (s : State) : (s.quiet).coll = s.coll := rfl
@[simp] theorem State.quiet_viden (s : State) : (s.quiet).viden = s.viden := rfl
@[simp] theorem State.quiet_banksw (s : State) : (s.quiet).banksw = s.banksw := rfl
@[simp] theorem State.quiet_gfxptr (s : State) : (s.quiet).gfxptr = s.gfxptr := rfl
@[simp] theorem State.quiet_zready (s : State) : (s.quiet).zready = s.zready := rfl
@[simp] theorem State.quiet_zaccept (s : State) : (s.quiet).zaccept = s.zaccept := rfl
@[simp] theorem State.quiet_fromz80 (s : State) : (s.quiet).fromz80 = s.fromz80 := rfl
@[simp] theorem State.quiet_toz80 (s : State) : (s.quiet).toz80 = s.toz80 := rfl
@[simp] theorem State.quiet_portaIn (s : State) : (s.quiet).portaIn = s.portaIn := rfl
@[simp] theorem State.quiet_portaOut (s : State) : (s.quiet).portaOut = s.portaOut := rfl
@[simp] theorem State.quiet_addr16 (s : State) : (s.quiet).addr16 = s.addr16 := rfl
@[simp] theorem State.quiet_mcuIrq (s : State) : (s.quiet).mcuIrq = s.mcuIrq := rfl
@[simp] theorem State.quiet_evq (s : State) : (s.quiet).evq = s.evq := rfl
@[simp] theorem State.quiet_protValue (s : State) : (s.quiet).protValue = s.protValue := rfl
@[simp] theorem State.quiet_trace (s : State) : (s.quiet).trace = s.trace := rfl
@[simp] theorem State.quiet_busIn (s : State) : (s.quiet).busIn = s.busIn := rfl
@[simp] theorem State.quiet_portIn (s : State) : (s.quiet).portIn = s.portIn := rfl
@[simp] theorem State.quiet_draws (s : State) : (s.quiet).draws = s.draws := rfl
@[simp] theorem State.quiet_lastProc (s : State) : (s.quiet).lastProc = s.lastProc := rfl
@[simp] theorem State.quiet_marked (s : State) : (s.quiet).marked = s.marked := rfl
@[simp] theorem State.quiet_out (s : State) : (s.quiet).out = Outputs.none := rfl

@[simp] theorem State.respond_cfg (s : State) (r : Byte) : (s.respond r).cfg = s.cfg := rfl
@[simp] theorem State.respond_cram (s : State) (r : Byte) : (s.respond r).cram = s.cram := rfl
@[simp] theorem State.respond_tileDirty (s : State) (r : Byte) : (s.respond r).tileDirty = s.tileDirty := rfl
@[simp] theorem State.respond_spatDirty (s : State) (r : Byte) : (s.respond r).spatDirty = s.spatDirty := rfl
@[simp] theorem State.respond_tilePix (s : State) (r : Byte) : (s.respond r).tilePix = s.tilePix := rfl
@[simp] theorem State.respond_spatPix (s : State) (r : Byte) : (s.respond r).spatPix = s.spatPix := rfl
@[simp] theorem State.respond_vram (s : State) (r : Byte) : (s.respond r).vram = s.vram := rfl
@[simp] theorem State.respond_cellDirty (s : State) (r : Byte) : (s.respond r).cellDirty = s.cellDirty := rfl
@[simp] theorem State.respond_pf (s : State) (r : Byte) : (s.respond r).pf = s.pf := rfl
@[simp] theorem State.respond_pscr (s : State) (r : Byte) : (s.respond r).pscr = s.pscr := rfl
@[simp] theorem State.respond_scroll (s : State) (r : Byte) : (s.respond r).scroll = s.scroll := rfl
@[simp] theorem State.respond_colscroll (s : State) (r : Byte) : (s.respond r).colscroll = s.colscroll := rfl
@[simp] theorem State.respond_colorbank (s : State) (r : Byte) : (s.respond r).colorbank = s.colorbank := rfl
@[simp] theorem State.respond_palram (s : State) (r : Byte) : (s.respond r).palram = s.palram := rfl
@[simp] theorem State.respond_draworder (s : State) (r : Byte) : (s.respond r).draworder = s.draworder := rfl
@[simp] theorem State.respond_priority (s : State) (r : Byte) : (s.respond r).priority = s.priority := rfl
@[simp] theorem State.respond_spram (s : State) (r : Byte) : (s.respond r).spram = s.spram := rfl
@[simp] theorem State.respond_coll (s : State) (r : Byte) : (s.respond r).coll = s.coll := rfl
@[simp] theorem State.respond_viden (s : State) (r : Byte) : (s.respond r).viden = s.viden := rfl
@[simp] theorem State.respond_banksw (s : State) (r : Byte) : (s.respond r).banksw = s.banksw := rfl
@[simp] theorem State.respond_gfxptr (s : State) (r : Byte) : (s.respond r).gfxptr = s.gfxptr := rfl
@[simp] theorem State.respond_zready (s : State) (r : Byte) : (s.respond r).zready = s.zready := rfl
@[simp] theorem State.respond_zaccept (s : State) (r : Byte) : (s.respond r).zaccept = s.zaccept := rfl
@[simp] theorem State.respond_fromz80 (s : State) (r : Byte) : (s.respond r).fromz80 = s.fromz80 := rfl
@[simp] theorem State.respond_toz80 (s : State) (r : Byte) : (s.respond r).toz80 = s.toz80 := rfl
@[simp] theorem State.respond_portaIn (s : State) (r : Byte) : (s.respond r).portaIn = s.portaIn := rfl
@[simp] theorem State.respond_portaOut (s : State) (r : Byte) : (s.respond r).portaOut = s.portaOut := rfl
@[simp] theorem State.respond_addr16 (s : State) (r : Byte) : (s.respond r).addr16 = s.addr16 := rfl
@[simp] theorem State.respond_mcuIrq (s : State) (r : Byte) : (s.respond r).mcuIrq = s.mcuIrq := rfl
@[simp] theorem State.respond_evq (s : State) (r : Byte) : (s.respond r).evq = s.evq := rfl
@[simp] theorem State.respond_protValue (s : State) (r : Byte) : (s.respond r).protValue = s.protValue := rfl
@[simp] theorem State.respond_trace (s : State) (r : Byte) : (s.respond r).trace = s.trace := rfl
@[simp] theorem State.respond_busIn (s : State) (r : Byte) : (s.respond r).busIn = s.busIn := rfl
@[simp] theorem State.respond_portIn (s : State) (r : Byte) : (s.respond r).portIn = s.portIn := rfl
@[simp] theorem State.respond_draws (s : State) (r : Byte) : (s.respond r).draws = s.draws := rfl
@[simp] theorem State.respond_lastProc (s : State) (r : Byte) : (s.respond r).lastProc = s.lastProc := rfl
@[simp] theorem State.respond_marked (s : State) (r : Byte) : (s.respond r).marked = s.marked := rfl
@[simp] theorem State.respond_out (s : State) (r : Byte) : (s.respond r).out = { Outputs.none with data := some r } := rfl

@[simp] theorem State.defer_cfg (s : State) (e : Deferred) : (s.defer e).cfg = s.cfg := rfl
@[simp] theorem State.defer_cram (s : State) (e : Deferred) : (s.defer e).cram = s.cram := rfl
@[simp] theorem State.defer_tileDirty (s : State) (e : Deferred) : (s.defer e).tileDirty = s.tileDirty := rfl
@[simp] theorem State.defer_spatDirty (s : State) (e : Deferred) : (s.defer e).spatDirty = s.spatDirty := rfl
@[simp] theorem State.defer_tilePix (s : State) (e : Deferred) : (s.defer e).tilePix = s.tilePix := rfl
@[simp] theorem State.defer_spatPix (s : State) (e : Deferred) : (s.defer e).spatPix = s.spatPix := rfl
@[simp] theorem State.defer_vram (s : State) (e : Deferred) : (s.defer e).vram = s.vram := rfl
@[simp] theorem State.defer_cellDirty (s : State) (e : Deferred) : (s.defer e).cellDirty = s.cellDirty := rfl
@[simp] theorem State.defer_pf (s : State) (e : Deferred) : (s.defer e).pf = s.pf := rfl
@[simp] theorem State.defer_pscr (s : State) (e : Deferred) : (s.defer e).pscr = s.pscr := rfl
@[simp] theorem State.defer_scroll (s : State) (e : Deferred) : (s.defer e).scroll = s.scroll := rfl
@[simp] theorem State.defer_colscroll (s : State) (e : Deferred) : (s.defer e).colscroll = s.colscroll := rfl
@[simp] theorem State.defer_colorbank (s : State) (e : Deferred) : (s.defer e).colorbank = s.colorbank := rfl
@[simp] theorem State.defer_palram (s : State) (e : Deferred) : (s.defer e).palram = s.palram := rfl
@[simp] theorem State.defer_draworder (s : State) (e : Deferred) : (s.defer e).draworder = s.draworder := rfl
@[simp] theorem State.defer_priority (s : State) (e : Deferred) : (s.defer e).priority = s.priority := rfl
@[simp] theorem State.defer_spram (s : State) (e : Deferred) : (s.defer e).spram = s.spram := rfl
@[simp] theorem State.defer_coll (s : State) (e : Deferred) : (s.defer e).coll = s.coll := rfl
@[simp] theorem State.defer_viden (s : State) (e : Deferred) : (s.defer e).viden = s.viden := rfl
@[simp] theorem State.defer_banksw (s : State) (e : Deferred) : (s.defer e).banksw = s.banksw := rfl
@[simp] theorem State.defer_gfxptr (s : State) (e : Deferred) : (s.defer e).gfxptr = s.gfxptr := rfl
@[simp] theorem State.defer_zready (s : State) (e : Deferred) : (s.defer e).zready = s.zready := rfl
@[simp] theorem State.defer_zaccept (s : State) (e : Deferred) : (s.defer e).zaccept = s.zaccept := rfl
@[simp] theorem State.defer_fromz80 (s : State) (e : Deferred) : (s.defer e).fromz80 = s.fromz80 := rfl
@[simp] theorem State.defer_toz80 (s : State) (e : Deferred) : (s.defer e).toz80 = s.toz80 := rfl
@[simp] theorem State.defer_portaIn (s : State) (e : Deferred) : (s.defer e).portaIn = s.portaIn := rfl
@[simp] theorem State.defer_portaOut (s : State) (e : Deferred) : (s.defer e).portaOut = s.portaOut := rfl
@[simp] theorem State.defer_addr16 (s : State) (e : Deferred) : (s.defer e).addr16 = s.addr16 := rfl
@[simp] theorem State.defer_mcuIrq (s : State) (e : Deferred) : (s.defer e).mcuIrq = s.mcuIrq := rfl
@[simp] theorem State.defer_evq (s : State) (e : Deferred) : (s.defer e).evq = s.evq ++ [e] := rfl
@[simp] theorem State.defer_protValue (s : State) (e : Deferred) : (s.defer e).protValue = s.protValue := rfl
@[simp] theorem State.defer_trace (s : State) (e : Deferred) : (s.defer e).trace = s.trace := rfl
@[simp] theorem State.defer_busIn (s : State) (e : Deferred) : (s.defer e).busIn = s.busIn := rfl
@[simp] theorem State.defer_portIn (s : State) (e : Deferred) : (s.defer e).portIn = s.portIn := rfl
@[simp] theorem State.defer_draws (s : State) (e : Deferred) : (s.defer e).draws = s.draws := rfl
@[simp] theorem State.defer_lastProc (s : State) (e : Deferred) : (s.defer e).lastProc = s.lastProc := rfl
@[simp] theorem State.defer_marked (s : State) (e : Deferred) : (s.defer e).marked = s.marked := rfl
@[simp] theorem State.defer_out (s : State) (e : Deferred) : (s.defer e).out = s.out := rfl

@[simp] theorem State.ackIrq_cfg (s : State) : (s.ackIrq).cfg = s.cfg := rfl
@[simp] theorem State.ackIrq_cram (s : State) : (s.ackIrq).cram = s.cram := rfl
@[simp] theorem State.ackIrq_tileDirty (s : State) : (s.ackIrq).tileDirty = s.tileDirty := rfl
@[simp] theorem State.ackIrq_spatDirty (s : State) : (s.ackIrq).spatDirty = s.spatDirty := rfl
@[simp] theorem State.ackIrq_tilePix (s : State) : (s.ackIrq).tilePix = s.tilePix := rfl
@[simp] theorem State.ackIrq_spatPix (s : State) : (s.ackIrq).spatPix = s.spatPix := rfl
@[simp] theorem State.ackIrq_vram (s : State) : (s.ackIrq).vram = s.vram := rfl
@[simp] theorem State.ackIrq_cellDirty (s : State) : (s.ackIrq).cellDirty = s.cellDirty := rfl
@[simp] theorem State.ackIrq_pf (s : State) : (s.ackIrq).pf = s.pf := rfl
@[simp] theorem State.ackIrq_pscr (s : State) : (s.ackIrq).pscr = s.pscr := rfl
@[simp] theorem State.ackIrq_scroll (s : State) : (s.ackIrq).scroll = s.scroll := rfl
@[simp] theorem State.ackIrq_colscroll (s : State) : (s.ackIrq).colscroll = s.colscroll := rfl
@[simp] theorem State.ackIrq_colorbank (s : State) : (s.ackIrq).colorbank = s.colorbank := rfl
@[simp] theorem State.ackIrq_palram (s : State) : (s.ackIrq).palram = s.palram := rfl
@[simp] theorem State.ackIrq_draworder (s : State) : (s.ackIrq).draworder = s.draworder := rfl
@[simp] theorem State.ackIrq_priority (s : State) : (s.ackIrq).priority = s.priority := rfl
@[simp] theorem State.ackIrq_spram (s : State) : (s.ackIrq).spram = s.spram := rfl
@[simp] theorem State.ackIrq_coll (s : State) : (s.ackIrq).coll = s.coll := rfl
@[simp] theorem State.ackIrq_viden (s : State) : (s.ackIrq).viden = s.viden := rfl
@[simp] theorem State.ackIrq_banksw (s : State) : (s.ackIrq).banksw = s.banksw := rfl
@[simp] theorem State.ackIrq_gfxptr (s : State) : (s.ackIrq).gfxptr = s.gfxptr := rfl
@[simp] theorem State.ackIrq_zready (s : State) : (s.ackIrq).zready = s.zready := rfl
@[simp] theorem State.ackIrq_zaccept (s : State) : (s.ackIrq).zaccept = s.zaccept := rfl
@[simp] theorem State.ackIrq_fromz80 (s : State) : (s.ackIrq).fromz80 = s.fromz80 := rfl
@[simp] theorem State.ackIrq_toz80 (s : State) : (s.ackIrq).toz80 = s.toz80 := rfl
@[simp] theorem State.ackIrq_portaIn (s : State) : (s.ackIrq).portaIn = s.portaIn := rfl
@[simp] theorem State.ackIrq_portaOut (s : State) : (s.ackIrq).portaOut = s.portaOut := rfl
@[simp] theorem State.ackIrq_addr16 (s : State) : (s.ackIrq).addr16 = s.addr16 := rfl
@[simp] theorem State.ackIrq_mcuIrq (s : State) : (s.ackIrq).mcuIrq = false := rfl
@[simp] theorem State.ackIrq_evq (s : State) : (s.ackIrq).evq = s.evq := rfl
@[simp] theorem State.ackIrq_protValue (s : State) : (s.ackIrq).protValue = s.protValue := rfl
@[simp] theorem State.ackIrq_trace (s : State) : (s.ackIrq).trace = s.trace := rfl
@[simp] theorem State.ackIrq_busIn (s : State) : (s.ackIrq).busIn = s.busIn := rfl
@[simp] theorem State.ackIrq_portIn (s : State) : (s.ackIrq).portIn = s.portIn := rfl
@[simp] theorem State.ackIrq_draws (s : State) : (s.ackIrq).draws = s.draws := rfl
@[simp] theorem State.ackIrq_lastProc (s : State) : (s.ackIrq).lastProc = s.lastProc := rfl
@[simp] theorem State.ackIrq_marked (s : State) : (s.ackIrq).marked = s.marked := rfl
@[simp] theorem State.ackIrq_out (s : State) : (s.ackIrq).out = s.out := rfl

@[simp] theorem State.markAllCells_cfg (s : State) : (s.markAllCells).cfg = s.cfg := rfl
@[simp] theorem State.markAllCells_cram (s : State) : (s.markAllCells).cram = s.cram := rfl
@[simp] theorem State.markAllCells_tileDirty (s : State) : (s.markAllCells).tileDirty = s.tileDirty := rfl
@[simp] theorem State.markAllCells_spatDirty (s : State) : (s.markAllCells).spatDirty = s.spatDirty := rfl
@[simp] theorem State.markAllCells_tilePix (s : State) : (s.markAllCells).tilePix = s.tilePix := rfl
@[simp] theorem State.markAllCells_spatPix (s : State) : (s.markAllCells).spatPix = s.spatPix := rfl
@[simp] theorem State.markAllCells_vram (s : State) : (s.markAllCells).vram = s.vram := rfl
@[simp] theorem State.markAllCells_cellDirty (s : State) : (s.markAllCells).cellDirty = .ofFn fun _ => Tab.fill true 10 := rfl
@[simp] theorem State.markAllCells_pf (s : State) : (s.markAllCells).pf = s.pf := rfl
@[simp] theorem State.markAllCells_pscr (s : State) : (s.markAllCells).pscr = s.pscr := rfl
@[simp] theorem State.markAllCells_scroll (s : State) : (s.markAllCells).scroll = s.scroll := rfl
@[simp] theorem State.markAllCells_colscroll (s : State) : (s.markAllCells).colscroll = s.colscroll := rfl
@[simp] theorem State.markAllCells_colorbank (s : State) : (s.markAllCells).colorbank = s.colorbank := rfl
@[simp] theorem State.markAllCells_palram (s : State) : (s.markAllCells).palram = s.palram := rfl
@[simp] theorem State.markAllCells_draworder (s : State) : (s.markAllCells).draworder = s.draworder := rfl
@[simp] theorem State.markAllCells_priority (s : State) : (s.markAllCells).priority = s.priority := rfl
@[simp] theorem State.markAllCells_spram (s : State) : (s.markAllCells).spram = s.spram := rfl
@[simp] theorem State.markAllCells_coll (s : State) : (s.markAllCells).coll = s.coll := rfl
@[simp] theorem State.markAllCells_viden (s : State) : (s.markAllCells).viden = s.viden := rfl
@[simp] theorem State.markAllCells_banksw (s : State) : (s.markAllCells).banksw = s.banksw := rfl
@[simp] theorem State.markAllCells_gfxptr (s : State) : (s.markAllCells).gfxptr = s.gfxptr := rfl
@[simp] theorem State.markAllCells_zready (s : State) : (s.markAllCells).zready = s.zready := rfl
@[simp] theorem State.markAllCells_zaccept (s : State) : (s.markAllCells).zaccept = s.zaccept := rfl
@[simp] theorem State.markAllCells_fromz80 (s : State) : (s.markAllCells).fromz80 = s.fromz80 := rfl
@[simp] theorem State.markAllCells_toz80 (s : State) : (s.markAllCells).toz80 = s.toz80 := rfl
@[simp] theorem State.markAllCells_portaIn (s : State) : (s.markAllCells).portaIn = s.portaIn := rfl
@[simp] theorem State.markAllCells_portaOut (s : State) : (s.markAllCells).portaOut = s.portaOut := rfl
@[simp] theorem State.markAllCells_addr16 (s : State) : (s.markAllCells).addr16 = s.addr16 := rfl
@[simp] theorem State.markAllCells_mcuIrq (s : State) : (s.markAllCells).mcuIrq = s.mcuIrq := rfl
@[simp] theorem State.markAllCells_evq (s : State) : (s.markAllCells).evq = s.evq := rfl
@[simp] theorem State.markAllCells_protValue (s : State) : (s.markAllCells).protValue = s.protValue := rfl
@[simp] theorem State.markAllCells_trace (s : State) : (s.markAllCells).trace = s.trace := rfl
@[simp] theorem State.markAllCells_busIn (s : State) : (s.markAllCells).busIn = s.busIn := rfl
@[simp] theorem State.markAllCells_portIn (s : State) : (s.markAllCells).portIn = s.portIn := rfl
@[simp] theorem State.markAllCells_draws (s : State) : (s.markAllCells).draws = s.draws := rfl
@[simp] theorem State.markAllCells_lastProc (s : State) : (s.markAllCells).lastProc = s.lastProc := rfl
@[simp] theorem State.markAllCells_marked (s : State) : (s.markAllCells).marked = s.marked := rfl
@[simp] theorem State.markAllCells_out (s : State) : (s.markAllCells).out = s.out := rfl

@[simp] theorem State.markCell_cfg (s : State) (n : Plane) (c : Nat) : (s.markCell n c).cfg = s.cfg := rfl
@[simp] theorem State.markCell_cram (s : State) (n : Plane) (c : Nat) : (s.markCell n c).cram = s.cram := rfl
@[simp] theorem State.markCell_tileDirty (s : State) (n : Plane) (c : Nat) : (s.markCell n c).tileDirty = s.tileDirty := rfl
@[simp] theorem State.markCell_spatDirty (s : State) (n : Plane) (c : Nat) : (s.markCell n c).spatDirty = s.spatDirty := rfl
@[simp] theorem State.markCell_tilePix (s : State) (n : Plane) (c : Nat) : (s.markCell n c).tilePix = s.tilePix := rfl
@[simp] theorem State.markCell_spatPix (s : State) (n : Plane) (c : Nat) : (s.markCell n c).spatPix = s.spatPix := rfl
@[simp] theorem State.markCell_vram (s : State) (n : Plane) (c : Nat) : (s.markCell n c).vram = s.vram := rfl
@[simp] theorem State.markCell_cellDirty (s : State) (n : Plane) (c : Nat) : (s.markCell n c).cellDirty = s.cellDirty.set n ((s.cellDirty.get n).set c true) := rfl
@[simp] theorem State.markCell_pf (s : State) (n : Plane) (c : Nat) : (s.markCell n c).pf = s.pf := rfl
@[simp] theorem State.markCell_pscr (s : State) (n : Plane) (c : Nat) : (s.markCell n c).pscr = s.pscr := rfl
@[simp] theorem State.markCell_scroll (s : State) (n : Plane) (c : Nat) : (s.markCell n c).scroll = s.scroll := rfl
@[simp] theorem State.markCell_colscroll (s : State) (n : Plane) (c : Nat) : (s.markCell n c).colscroll = s.colscroll := rfl
@[simp] theorem State.markCell_colorbank (s : State) (n : Plane) (c : Nat) : (s.markCell n c).colorbank = s.colorbank := rfl
@[simp] theorem State.markCell_palram (s : State) (n : Plane) (c : Nat) : (s.markCell n c).palram = s.palram := rfl
@[simp] theorem State.markCell_draworder (s : State) (n : Plane) (c : Nat) : (s.markCell n c).draworder = s.draworder := rfl
@[simp] theorem State.markCell_priority (s : State) (n : Plane) (c : Nat) : (s.markCell n c).priority = s.priority := rfl
@[simp] theorem State.markCell_spram (s : State) (n : Plane) (c : Nat) : (s.markCell n c).spram = s.spram := rfl
@[simp] theorem State.markCell_coll (s : State) (n : Plane) (c : Nat) : (s.markCell n c).coll = s.coll := rfl
@[simp] theorem State.markCell_viden (s : State) (n : Plane) (c : Nat) : (s.markCell n c).viden = s.viden := rfl
@[simp] theorem State.markCell_banksw (s : State) (n : Plane) (c : Nat) : (s.markCell n c).banksw = s.banksw := rfl
@[simp] theorem State.markCell_gfxptr (s : State) (n : Plane) (c : Nat) : (s.markCell n c).gfxptr = s.gfxptr := rfl
@[simp] theorem State.markCell_zready (s : State) (n : Plane) (c : Nat) : (s.markCell n c).zready = s.zready := rfl
@[simp] theorem State.markCell_zaccept (s : State) (n : Plane) (c : Nat) : (s.markCell n c).zaccept = s.zaccept := rfl
@[simp] theorem State.markCell_fromz80 (s : State) (n : Plane) (c : Nat) : (s.markCell n c).fromz80 = s.fromz80 := rfl
@[simp] theorem State.markCell_toz80 (s : State) (n : Plane) (c : Nat) : (s.markCell n c).toz80 = s.toz80 := rfl
@[simp] theorem State.markCell_portaIn (s : State) (n : Plane) (c : Nat) : (s.markCell n c).portaIn = s.portaIn := rfl
@[simp] theorem State.markCell_portaOut (s : State) (n : Plane) (c : Nat) : (s.markCell n c).portaOut = s.portaOut := rfl
@[simp] theorem State.markCell_addr16 (s : State) (n : Plane) (c : Nat) : (s.markCell n c).addr16 = s.addr16 := rfl
@[simp] theorem State.markCell_mcuIrq (s : State) (n : Plane) (c : Nat) : (s.markCell n c).mcuIrq = s.mcuIrq := rfl
@[simp] theorem State.markCell_evq (s : State) (n : Plane) (c : Nat) : (s.markCell n c).evq = s.evq := rfl
@[simp] theorem State.markCell_protValue (s : State) (n : Plane) (c : Nat) : (s.markCell n c).protValue = s.protValue := rfl
@[simp] theorem State.markCell_trace (s : State) (n : Plane) (c : Nat) : (s.markCell n c).trace = s.trace := rfl
@[simp] theorem State.markCell_busIn (s : State) (n : Plane) (c : Nat) : (s.markCell n c).busIn = s.busIn := rfl
@[simp] theorem State.markCell_portIn (s : State) (n : Plane) (c : Nat) : (s.markCell n c).portIn = s.portIn := rfl
@[simp] theorem State.markCell_draws (s : State) (n : Plane) (c : Nat) : (s.markCell n c).draws = s.draws := rfl
@[simp] theorem State.markCell_lastProc (s : State) (n : Plane) (c : Nat) : (s.markCell n c).lastProc = s.lastProc := rfl
@[simp] theorem State.markCell_marked (s : State) (n : Plane) (c : Nat) : (s.markCell n c).marked = s.marked := rfl
@[simp] theorem State.markCell_out (s : State) (n : Plane) (c : Nat) : (s.markCell n c).out = s.out := rfl

@[simp] theorem State.markChar_cfg (s : State) (off : Nat) : (s.markChar off).cfg = s.cfg := rfl
@[simp] theorem State.markChar_cram (s : State) (off : Nat) : (s.markChar off).cram = s.cram := rfl
@[simp] theorem State.markChar_tileDirty (s : State) (off : Nat) : (s.markChar off).tileDirty = s.tileDirty.set (bankOf off) ((s.tileDirty.get (bankOf off)).set (tileOf off) true) := rfl
@[simp] theorem State.markChar_spatDirty (s : State) (off : Nat) : (s.markChar off).spatDirty = s.spatDirty.set (bankOf off) ((s.spatDirty.get (bankOf off)).set (spatOf off) true) := rfl
@[simp] theorem State.markChar_tilePix (s : State) (off : Nat) : (s.markChar off).tilePix = s.tilePix := rfl
@[simp] theorem State.markChar_spatPix (s : State) (off : Nat) : (s.markChar off).spatPix = s.spatPix := rfl
@[simp] theorem State.markChar_vram (s : State) (off : Nat) : (s.markChar off).vram = s.vram := rfl
@[simp] theorem State.markChar_cellDirty (s : State) (off : Nat) : (s.markChar off).cellDirty = s.cellDirty := rfl
@[simp] theorem State.markChar_pf (s : State) (off : Nat) : (s.markChar off).pf = s.pf := rfl
@[simp] theorem State.markChar_pscr (s : State) (off : Nat) : (s.markChar off).pscr = s.pscr := rfl
@[simp] theorem State.markChar_scroll (s : State) (off : Nat) : (s.markChar off).scroll = s.scroll := rfl
@[simp] theorem State.markChar_colscroll (s : State) (off : Nat) : (s.markChar off).colscroll = s.colscroll := rfl
@[simp] theorem State.markChar_colorbank (s : State) (off : Nat) : (s.markChar off).colorbank = s.colorbank := rfl
@[simp] theorem State.markChar_palram (s : State) (off : Nat) : (s.markChar off).palram = s.palram := rfl
@[simp] theorem State.markChar_draworder (s : State) (off : Nat) : (s.markChar off).draworder = s.draworder := rfl
@[simp] theorem State.markChar_priority (s : State) (off : Nat) : (s.markChar off).priority = s.priority := rfl
@[simp] theorem State.markChar_spram (s : State) (off : Nat) : (s.markChar off).spram = s.spram := rfl
@[simp] theorem State.markChar_coll (s : State) (off : Nat) : (s.markChar off).coll = s.coll := rfl
@[simp] theorem State.markChar_viden (s : State) (off : Nat) : (s.markChar off).viden = s.viden := rfl
@[simp] theorem State.markChar_banksw (s : State) (off : Nat) : (s.markChar off).banksw = s.banksw := rfl
@[simp] theorem State.markChar_gfxptr (s : State) (off : Nat) : (s.markChar off).gfxptr = s.gfxptr := rfl
@[simp] theorem State.markChar_zready (s : State) (off : Nat) : (s.markChar off).zready = s.zready := rfl
@[simp] theorem State.markChar_zaccept (s : State) (off : Nat) : (s.markChar off).zaccept = s.zaccept := rfl
@[simp] theorem State.markChar_fromz80 (s : State) (off : Nat) : (s.markChar off).fromz80 = s.fromz80 := rfl
@[simp] theorem State.markChar_toz80 (s : State) (off : Nat) : (s.markChar off).toz80 = s.toz80 := rfl
@[simp] theorem State.markChar_portaIn (s : State) (off : Nat) : (s.markChar off).portaIn = s.portaIn := rfl
@[simp] theorem State.markChar_portaOut (s : State) (off : Nat) : (s.markChar off).portaOut = s.portaOut := rfl
@[simp] theorem State.markChar_addr16 (s : State) (off : Nat) : (s.markChar off).addr16 = s.addr16 := rfl
@[simp] theorem State.markChar_mcuIrq (s : State) (off : Nat) : (s.markChar off).mcuIrq = s.mcuIrq := rfl
@[simp] theorem State.markChar_evq (s : State) (off : Nat) : (s.markChar off).evq = s.evq := rfl
@[simp] theorem State.markChar_protValue (s : State) (off : Nat) : (s.markChar off).protValue = s.protValue := rfl
@[simp] theorem State.markChar_trace (s : State) (off : Nat) : (s.markChar off).trace = s.trace := rfl
@[simp] theorem State.markChar_busIn (s : State) (off : Nat) : (s.markChar off).busIn = s.busIn := rfl
@[simp] theorem State.markChar_portIn (s : State) (off : Nat) : (s.markChar off).portIn = s.portIn := rfl
@[simp] theorem State.markChar_draws (s : State) (off : Nat) : (s.markChar off).draws = s.draws := rfl
@[simp] theorem State.markChar_lastProc (s : State) (off : Nat) : (s.markChar off).lastProc = s.lastProc := rfl
@[simp] theorem State.markChar_marked (s : State) (off : Nat) : (s.markChar off).marked = s.marked := rfl
@[simp] theorem State.markChar_out (s : State) (off : Nat) : (s.markChar off).out = s.out := rfl

@[simp] theorem State.decodeDirty_cfg (s : State) : (s.decodeDirty).cfg = s.cfg := rfl
@[simp] theorem State.decodeDirty_cram (s : State) : (s.decodeDirty).cram = s.cram := rfl
@[simp] theorem State.decodeDirty_tileDirty (s : State) : (s.decodeDirty).tileDirty = ⟨Tab.fill false 8, Tab.fill false 8⟩ := rfl
@[simp] theorem State.decodeDirty_spatDirty (s : State) : (s.decodeDirty).spatDirty = ⟨Tab.fill false 6, Tab.fill false 6⟩ := rfl
@[simp] theorem State.decodeDirty_tilePix (s : State) : (s.decodeDirty).tilePix = .ofFn s.decodedTiles := rfl
@[simp] theorem State.decodeDirty_spatPix (s : State) : (s.decodeDirty).spatPix = .ofFn s.decodedSpats := rfl
@[simp] theorem State.decodeDirty_vram (s : State) : (s.decodeDirty).vram = s.vram := rfl
@[simp] theorem State.decodeDirty_cellDirty (s : State) : (s.decodeDirty).cellDirty = .ofFn s.propagated := rfl
@[simp] theorem State.decodeDirty_pf (s : State) : (s.decodeDirty).pf = s.pf := rfl
@[simp] theorem State.decodeDirty_pscr (s : State) : (s.decodeDirty).pscr = s.pscr := rfl
@[simp] theorem State.decodeDirty_scroll (s : State) : (s.decodeDirty).scroll = s.scroll := rfl
@[simp] theorem State.decodeDirty_colscroll (s : State) : (s.decodeDirty).colscroll = s.colscroll := rfl
@[simp] theorem State.decodeDirty_colorbank (s : State) : (s.decodeDirty).colorbank = s.colorbank := rfl
@[simp] theorem State.decodeDirty_palram (s : State) : (s.decodeDirty).palram = s.palram := rfl
@[simp] theorem State.decodeDirty_draworder (s : State) : (s.decodeDirty).draworder = s.draworder := rfl
@[simp] theorem State.decodeDirty_priority (s : State) : (s.decodeDirty).priority = s.priority := rfl
@[simp] theorem State.decodeDirty_spram (s : State) : (s.decodeDirty).spram = s.spram := rfl
@[simp] theorem State.decodeDirty_coll (s : State) : (s.decodeDirty).coll = s.coll := rfl
@[simp] theorem State.decodeDirty_viden (s : State) : (s.decodeDirty).viden = s.viden := rfl
@[simp] theorem State.decodeDirty_banksw (s : State) : (s.decodeDirty).banksw = s.banksw := rfl
@[simp] theorem State.decodeDirty_gfxptr (s : State) : (s.decodeDirty).gfxptr = s.gfxptr := rfl
@[simp] theorem State.decodeDirty_zready (s : State) : (s.decodeDirty).zready = s.zready := rfl
@[simp] theorem State.decodeDirty_zaccept (s : State) : (s.decodeDirty).zaccept = s.zaccept := rfl
@[simp] theorem State.decodeDirty_fromz80 (s : State) : (s.decodeDirty).fromz80 = s.fromz80 := rfl
@[simp] theorem State.decodeDirty_toz80 (s : State) : (s.decodeDirty).toz80 = s.toz80 := rfl
@[simp] theorem State.decodeDirty_portaIn (s : State) : (s.decodeDirty).portaIn = s.portaIn := rfl
@[simp] theorem State.decodeDirty_portaOut (s : State) : (s.decodeDirty).portaOut = s.portaOut := rfl
@[simp] theorem State.decodeDirty_addr16 (s : State) : (s.decodeDirty).addr16 = s.addr16 := rfl
@[simp] theorem State.decodeDirty_mcuIrq (s : State) : (s.decodeDirty).mcuIrq = s.mcuIrq := rfl
@[simp] theorem State.decodeDirty_evq (s : State) : (s.decodeDirty).evq = s.evq := rfl
@[simp] theorem State.decodeDirty_protValue (s : State) : (s.decodeDirty).protValue = s.protValue := rfl
@[simp] theorem State.decodeDirty_trace (s : State) : (s.decodeDirty).trace = s.trace := rfl
@[simp] theorem State.decodeDirty_busIn (s : State) : (s.decodeDirty).busIn = s.busIn := rfl
@[simp] theorem State.decodeDirty_portIn (s : State) : (s.decodeDirty).portIn = s.portIn := rfl
@[simp] theorem State.decodeDirty_draws (s : State) : (s.decodeDirty).draws = s.draws := rfl
@[simp] theorem State.decodeDirty_lastProc (s : State) : (s.decodeDirty).lastProc = s.lastProc := rfl
@[simp] theorem State.decodeDirty_marked (s : State) : (s.decodeDirty).marked = s.marked := rfl
@[simp] theorem State.decodeDirty_out (s : State) : (s.decodeDirty).out = s.out := rfl

@[simp] theorem State.redrawCells_cfg (s : State) : (s.redrawCells).cfg = s.cfg := rfl
@[simp] theorem State.redrawCells_cram (s : State) : (s.redrawCells).cram = s.cram := rfl
@[simp] theorem State.redrawCells_tileDirty (s : State) : (s.redrawCells).tileDirty = s.tileDirty := rfl
@[simp] theorem State.redrawCells_spatDirty (s : State) : (s.redrawCells).spatDirty = s.spatDirty := rfl
@[simp] theorem State.redrawCells_tilePix (s : State) : (s.redrawCells).tilePix = s.tilePix := rfl
@[simp] theorem State.redrawCells_spatPix (s : State) : (s.redrawCells).spatPix = s.spatPix := rfl
@[simp] theorem State.redrawCells_vram (s : State) : (s.redrawCells).vram = s.vram := rfl
@[simp] theorem State.redrawCells_cellDirty (s : State) : (s.redrawCells).cellDirty = ⟨Tab.fill false 10, Tab.fill false 10, Tab.fill false 10⟩ := rfl
@[simp] theorem State.redrawCells_pf (s : State) : (s.redrawCells).pf = .ofFn s.redrawn := rfl
@[simp] theorem State.redrawCells_pscr (s : State) : (s.redrawCells).pscr = s.pscr := rfl
@[simp] theorem State.redrawCells_scroll (s : State) : (s.redrawCells).scroll = s.scroll := rfl
@[simp] theorem State.redrawCells_colscroll (s : State) : (s.redrawCells).colscroll = s.colscroll := rfl
@[simp] theorem State.redrawCells_colorbank (s : State) : (s.redrawCells).colorbank = s.colorbank := rfl
@[simp] theorem State.redrawCells_palram (s : State) : (s.redrawCells).palram = s.palram := rfl
@[simp] theorem State.redrawCells_draworder (s : State) : (s.redrawCells).draworder = s.draworder := rfl
@[simp] theorem State.redrawCells_priority (s : State) : (s.redrawCells).priority = s.priority := rfl
@[simp] theorem State.redrawCells_spram (s : State) : (s.redrawCells).spram = s.spram := rfl
@[simp] theorem State.redrawCells_coll (s : State) : (s.redrawCells).coll = s.coll := rfl
@[simp] theorem State.redrawCells_viden (s : State) : (s.redrawCells).viden = s.viden := rfl
@[simp] theorem State.redrawCells_banksw (s : State) : (s.redrawCells).banksw = s.banksw := rfl
@[simp] theorem State.redrawCells_gfxptr (s : State) : (s.redrawCells).gfxptr = s.gfxptr := rfl
@[simp] theorem State.redrawCells_zready (s : State) : (s.redrawCells).zready = s.zready := rfl
@[simp] theorem State.redrawCells_zaccept (s : State) : (s.redrawCells).zaccept = s.zaccept := rfl
@[simp] theorem State.redrawCells_fromz80 (s : State) : (s.redrawCells).fromz80 = s.fromz80 := rfl
@[simp] theorem State.redrawCells_toz80 (s : State) : (s.redrawCells).toz80 = s.toz80 := rfl
@[simp] theorem State.redrawCells_portaIn (s : State) : (s.redrawCells).portaIn = s.portaIn := rfl
@[simp] theorem State.redrawCells_portaOut (s : State) : (s.redrawCells).portaOut = s.portaOut := rfl
@[simp] theorem State.redrawCells_addr16 (s : State) : (s.redrawCells).addr16 = s.addr16 := rfl
@[simp] theorem State.redrawCells_mcuIrq (s : State) : (s.redrawCells).mcuIrq = s.mcuIrq := rfl
@[simp] theorem State.redrawCells_evq (s : State) : (s.redrawCells).evq = s.evq := rfl
@[simp] theorem State.redrawCells_protValue (s : State) : (s.redrawCells).protValue = s.protValue := rfl
@[simp] theorem State.redrawCells_trace (s : State) : (s.redrawCells).trace = s.trace := rfl
@[simp] theorem State.redrawCells_busIn (s : State) : (s.redrawCells).busIn = s.busIn := rfl
@[simp] theorem State.redrawCells_portIn (s : State) : (s.redrawCells).portIn = s.portIn := rfl
@[simp] theorem State.redrawCells_draws (s : State) : (s.redrawCells).draws = s.draws := rfl
@[simp] theorem State.redrawCells_lastProc (s : State) : (s.redrawCells).lastProc = s.lastProc := rfl
@[simp] theorem State.redrawCells_marked (s : State) : (s.redrawCells).marked = s.marked := rfl
@[simp] theorem State.redrawCells_out (s : State) : (s.redrawCells).out = s.out := rfl

end Sys2Proof.Machine
end

