-- ==== Sys2Proof/Laws/Ops.lean ====
section
/-! SUPPORT. One lemma for each shared operation: everything it can do. -/

namespace Sys2Proof.Machine

/-! ### Bits -/

/-- Setting a bit of a byte sets that bit and no other. -/
theorem getLsbD_orBit (d : Byte) {i : Nat} (hi : i < 8) (j : Nat) :
    (orBit d i).getLsbD j = (d.getLsbD j || decide (j = i)) := by
  simp only [orBit, BitVec.getLsbD_or, BitVec.getLsbD_twoPow]
  congr 1
  rw [← Bool.decide_and, decide_eq_decide]
  omega

/-- The dirty bits after a conditional mark. -/
theorem get_markWhere {n : Nat} (d : Tab Bool n) (f : Nat → Bool) {i : Nat} (h : i < 2 ^ n) :
    (markWhere d f).get i = (d.get i || f i) := Tab.get_tabulate _ h

/-- The tiles that are dirty after a mark (R130). -/
theorem tileIsDirty_markChar (s : State) (off : Nat) (b : Bank) {i : Nat} (h : i < 256) :
    (s.markChar off).tileIsDirty b i = (s.tileIsDirty b i || (b == bankOf off && i == tileOf off)) := by
  have ht : tileOf off < 2 ^ 8 := Nat.mod_lt _ (by decide)
  simp only [State.tileIsDirty, State.markChar_tileDirty, PerBank.get_set]
  split
  · subst b
    rw [Tab.get_set_lt _ ht h]
    by_cases hi : i = tileOf off <;> simp [hi]
  · simp [*]

/-- The patterns that are dirty after a mark (R130). -/
theorem spatIsDirty_markChar (s : State) (off : Nat) (b : Bank) {i : Nat} (h : i < 64) :
    (s.markChar off).spatIsDirty b i = (s.spatIsDirty b i || (b == bankOf off && i == spatOf off)) := by
  have ht : spatOf off < 2 ^ 6 := Nat.mod_lt _ (by decide)
  simp only [State.spatIsDirty, State.markChar_spatDirty, PerBank.get_set]
  split
  · subst b
    rw [Tab.get_set_lt _ ht h]
    by_cases hi : i = spatOf off <;> simp [hi]
  · simp [*]

/-- The cells that are dirty after a mark (R131). -/
theorem cellIsDirty_markCell (s : State) (n : Plane) {c : Nat} (hc : c < 1024) (m : Plane) {d : Nat} (hd : d < 1024) :
    (s.markCell n c).cellIsDirty m d = (s.cellIsDirty m d || (m == n && d == c)) := by
  simp only [State.cellIsDirty, State.markCell_cellDirty, PerPlane.get_set]
  split
  · subst m
    rw [Tab.get_set_lt (n := 10) _ hc hd]
    by_cases hi : d = c <;> simp [hi]
  · simp [*]

/-- Every cell is dirty after a mark of all (R144, R153). -/
@[simp] theorem cellIsDirty_markAllCells (s : State) (n : Plane) (c : Nat) :
    s.markAllCells.cellIsDirty n c = true := by simp [State.cellIsDirty, State.markAllCells]

/-- A dirty bit stays set under a mark of any kind. -/
theorem Tab.get_set_true {n : Nat} (t : Tab Bool n) (i j : Nat) (h : t.get j = true) : (t.set i true).get j = true := by
  rw [Tab.get_set]; split <;> simp [h]

/-! ### Collision registers -/

/-- The collision bits after `SetSpriteBit` (R262). -/
theorem regGet_setSpriteBit (c : Vector Byte 4) (i r k : Nat) :
    (regGet (setSpriteBit c i) r).getLsbD k =
      ((regGet c r).getLsbD k || (decide (r = min (i / 8) 2) && decide (k = i % 8))) := by
  have hi : i % 8 < 8 := Nat.mod_lt _ (by decide)
  have hr : min (i / 8) 2 < 4 := by omega
  simp only [setSpriteBit]
  by_cases h : r = min (i / 8) 2
  · rw [h, regGet_regSet_same _ hr, getLsbD_orBit _ hi]; simp
  · rw [regGet_regSet_ne _ h]; simp [h]

/-- The collision bits after setting a plane's bit (R264). -/
theorem regGet_setPlaneBit (c : Vector Byte 4) (n : Plane) (r k : Nat) :
    (regGet (setPlaneBit c n) r).getLsbD k =
      ((regGet c r).getLsbD k || (decide (r = 3) && decide (k = n.number))) := by
  have hn : n.number < 8 := by cases n <;> decide
  simp only [setPlaneBit]
  by_cases h : r = 3
  · rw [h, regGet_regSet_same _ (by decide), getLsbD_orBit _ hn]; simp
  · rw [regGet_regSet_ne _ h]; simp [h]

/-- The sprite bits after `SetSpriteBit`: outside the hole each slot has a bit of its own (R262, R267). -/
theorem spriteBit_setSpriteBit (c : Vector Byte 4) {i j : Nat} (hi : i < 32) (hj : j < 32)
    (hhi : Config.inHole i = false) (hhj : Config.inHole j = false) :
    spriteBit (setSpriteBit c i) j = (spriteBit c j || decide (j = i)) := by
  simp only [spriteBit, regGet_setSpriteBit]
  congr 1
  simp only [Config.inHole, Bool.and_eq_false_iff, decide_eq_false_iff_not] at hhi hhj
  rw [← Bool.decide_and, decide_eq_decide]
  omega

/-- A plane's bit is no sprite's (R264). -/
@[simp] theorem spriteBit_setPlaneBit (c : Vector Byte 4) (n : Plane) (j : Nat) :
    spriteBit (setPlaneBit c n) j = spriteBit c j := by
  have : min (j / 8) 2 ≠ 3 := by omega
  simp [spriteBit, regGet_setPlaneBit, this]

/-- A sprite's bit is no plane's (R262). -/
@[simp] theorem planeBit_setSpriteBit (c : Vector Byte 4) (i : Nat) (n : Plane) :
    planeBit (setSpriteBit c i) n = planeBit c n := by
  have : (3 : Nat) ≠ min (i / 8) 2 := by omega
  simp [planeBit, regGet_setSpriteBit, this]

/-- The plane bits after setting one (R264). -/
theorem planeBit_setPlaneBit (c : Vector Byte 4) (n m : Plane) :
    planeBit (setPlaneBit c n) m = (planeBit c m || decide (m = n)) := by
  simp only [planeBit, regGet_setPlaneBit]
  cases n <;> cases m <;> simp [Plane.number]

/-- Two register arrays with equal bits are equal. -/
theorem coll_ext {c d : Vector Byte 4} (h : ∀ r k, r < 4 → k < 8 → (regGet c r).getLsbD k = (regGet d r).getLsbD k) :
    c = d := by
  refine Vector.ext fun r hr => BitVec.eq_of_getLsbD_eq fun k hk => ?_
  simpa [regGet, hr] using h r k hr hk

/-! ### Stores into character and video RAM -/

/-- Everything a character-RAM write does (R130). -/
theorem storeCram_spec (s : State) (off : Nat) (v : Byte) :
    s.storeCram off v = s ∧ s.cram.read off = v ∨
      s.storeCram off v = { s.markChar off with cram := s.cram.write off v } ∧ s.cram.read off ≠ v := by
  unfold State.storeCram
  split
  · exact .inl ⟨rfl, ‹_›⟩
  · exact .inr ⟨rfl, ‹_›⟩

/-- Everything a video-RAM write does (R131). -/
theorem storeVram_spec (s : State) (n : Plane) (off : Nat) (v : Byte) :
    s.storeVram n off v = s ∧ (s.vram.get n).read off = v ∨
      s.storeVram n off v = { s.markCell n off with vram := s.vram.set n ((s.vram.get n).write off v) } ∧
        (s.vram.get n).read off ≠ v := by
  unfold State.storeVram
  split
  · exact .inl ⟨rfl, ‹_›⟩
  · exact .inr ⟨rfl, ‹_›⟩

/-! ### Deferred events, draws, variants -/

/-- What applying deferred events can change: the flags, the interrupt line and the two latches (R296 to R299, R83). -/
theorem foldl_applyDeferred_frame (q : List Deferred) (s : State) :
    q.foldl applyDeferred s = { s with
      zready := (q.foldl applyDeferred s).zready
      zaccept := (q.foldl applyDeferred s).zaccept
      mcuIrq := (q.foldl applyDeferred s).mcuIrq
      fromz80 := (q.foldl applyDeferred s).fromz80
      toz80 := (q.foldl applyDeferred s).toz80 } := by
  induction q generalizing s with
  | nil => rfl
  | cons e q ih =>
    rw [List.foldl_cons, ih]
    cases e <;> rfl

/-- What a drain can change (R83). -/
theorem drain_frame (s : State) :
    s.drain = { s with
      evq := []
      zready := s.drain.zready
      zaccept := s.drain.zaccept
      mcuIrq := s.drain.mcuIrq
      fromz80 := s.drain.fromz80
      toz80 := s.drain.toz80
      lastProc := none } := by
  simp only [State.drain]
  rw [foldl_applyDeferred_frame]

/-- A transaction of a variant answers exactly in that variant (R290). -/
theorem inVariant_eq_next {s t u : State} {v : ProtVariant} :
    inVariant s v t = .next u ↔ s.cfg.protVariant = v ∧ u = t := by
  unfold inVariant
  split <;> simp_all [eq_comm]

/-- What the lines of port B can change (R302 to R307, R311). -/
theorem lineAction_frame (s : State) (l : PortBLine) :
    lineAction s l = { s with
      evq := (lineAction s l).evq
      mcuIrq := (lineAction s l).mcuIrq
      portaIn := (lineAction s l).portaIn
      addr16 := (lineAction s l).addr16
      busIn := (lineAction s l).busIn
      draws := (lineAction s l).draws
      out := (lineAction s l).out } := by
  cases l <;> try rfl
  simp only [lineAction, State.memRead, State.busDrawn]
  cases s.busIn <;> rfl

/-- The interrupt line can only fall in a line action (R303, R344). -/
theorem lineAction_mcuIrq {s : State} {l : PortBLine} (h : (lineAction s l).mcuIrq = true) : s.mcuIrq = true := by
  cases l <;> first | exact h | (simp [lineAction, State.readLatch] at h; done) | skip
  simp only [lineAction, State.memRead, State.busDrawn] at h
  revert h
  cases s.busIn <;> exact id

/-- What a write of port B can change (R301). -/
theorem portBits_frame (v : Byte) (ks : List Nat) (s : State) :
    ks.foldl (portBit v) s = { s with
      evq := (ks.foldl (portBit v) s).evq
      mcuIrq := (ks.foldl (portBit v) s).mcuIrq
      portaIn := (ks.foldl (portBit v) s).portaIn
      addr16 := (ks.foldl (portBit v) s).addr16
      busIn := (ks.foldl (portBit v) s).busIn
      draws := (ks.foldl (portBit v) s).draws
      out := (ks.foldl (portBit v) s).out } := by
  induction ks generalizing s with
  | nil => rfl
  | cons k ks ih =>
    have one : portBit v s k = { s with
        evq := (portBit v s k).evq
        mcuIrq := (portBit v s k).mcuIrq
        portaIn := (portBit v s k).portaIn
        addr16 := (portBit v s k).addr16
        busIn := (portBit v s k).busIn
        draws := (portBit v s k).draws
        out := (portBit v s k).out } := by
      unfold portBit
      split
      · rfl
      · split
        · rfl
        · exact lineAction_frame s _
    rw [List.foldl_cons, ih, one]

/-- The interrupt line can only fall in a write of port B (R303, R318). -/
theorem portBits_mcuIrq {v : Byte} {ks : List Nat} {s : State} (h : (ks.foldl (portBit v) s).mcuIrq = true) :
    s.mcuIrq = true := by
  induction ks generalizing s with
  | nil => exact h
  | cons k ks ih =>
    have := ih h
    unfold portBit at this
    split at this
    · exact this
    · split at this
      · exact this
      · exact lineAction_mcuIrq this

/-- A line action that lets the interrupt line fall is the read latch's (R303, R344). -/
theorem lineAction_ackIrq {s : State} {l : PortBLine} (h : s.mcuIrq = true) (h' : (lineAction s l).mcuIrq = false) :
    l = .readLatch := by
  have other : (lineAction s l).mcuIrq = s.mcuIrq → l = .readLatch := fun e => by rw [e, h] at h'; cases h'
  cases l <;> first | rfl | exact other rfl | skip
  refine other ?_
  simp only [lineAction, State.memRead, State.busDrawn]
  cases s.busIn <;> rfl

/-- One bit of port B keeps the configuration. -/
theorem portBit_cfg (v : Byte) (s : State) (k : Nat) : (portBit v s k).cfg = s.cfg := by
  unfold portBit
  split
  · rfl
  · split
    · rfl
    · rw [lineAction_frame]

/-- A write of port B lets the interrupt line fall only by a bit of the read latch that is 0 (R303, R318 (2)). -/
theorem portBits_ackIrq {v : Byte} {ks : List Nat} {s : State} (h : s.mcuIrq = true)
    (h' : (ks.foldl (portBit v) s).mcuIrq = false) :
    ∃ k ∈ ks, s.cfg.portbMap[k]? = some (some .readLatch) ∧ v.getLsbD k = false := by
  induction ks generalizing s with
  | nil => exact absurd (h.symm.trans h') (by decide)
  | cons k ks ih =>
    by_cases hk : (portBit v s k).mcuIrq = true
    · obtain ⟨j, hj, hm, hv⟩ := ih hk h'
      exact ⟨j, List.mem_cons_of_mem k hj, portBit_cfg v s k ▸ hm, hv⟩
    · refine ⟨k, List.mem_cons_self, ?_⟩
      unfold portBit at hk
      split at hk
      · exact absurd h hk
      · rename_i l hl
        split at hk
        · exact absurd h hk
        · rename_i hb
          obtain rfl := lineAction_ackIrq h (by simpa using hk)
          exact ⟨Option.join_eq_some_iff.1 hl, by simpa using hb⟩

/-! ### The address map -/

/-- Two ranges of a well-formed map are of different ports, and lie apart if they are of one space (R102). -/
theorem AddrMap.apart {m : AddrMap} (hm : m.wf) {a b : PortRange} (ha : a ∈ m) (hb : b ∈ m) (hne : a ≠ b) :
    a.port ≠ b.port ∧ (a.port.space = b.port.space → a.last < b.first ∨ b.last < a.first) := by
  have hp := hm.2.2
  clear hm
  induction m with
  | nil => simp at ha
  | cons c m ih =>
    obtain ⟨hc, hm⟩ := List.pairwise_cons.1 hp
    rcases List.mem_cons.1 ha with ea | ha' <;> rcases List.mem_cons.1 hb with eb | hb'
    · exact absurd (ea.trans eb.symm) hne
    · subst ea; exact hc b hb'
    · subst eb; exact ⟨(hc a ha').1.symm, fun h => ((hc a ha').2 h.symm).symm⟩
    · exact ih ha' hb' hm

/-- An address inside a port's range, in a direction the port has, selects that port under a well-formed map (R102). -/
theorem select_of_mem {m : AddrMap} (hm : m.wf) {e : PortRange} (he : e ∈ m) {d : Dir} (hd : e.port.has d = true)
    {off : Nat} (hoff : off < e.port.size) : m.select e.port.space d (e.first + off) = some (e.port, off) := by
  have hr := hm.2.1
  have hrange := hr e he
  have holds_iff : ∀ x ∈ m, (x.holds e.port.space (e.first + off) && x.port.has d) = true → x = e := by
    intro x hx h
    simp only [PortRange.holds, Bool.and_eq_true, beq_iff_eq, decide_eq_true_eq] at h
    by_contra hne
    obtain ⟨⟨⟨hsp, h1, h2⟩, h3⟩, -⟩ := h
    have hxr := (hr x hx).1
    have hxe := hrange.1
    rcases (AddrMap.apart hm hx he hne).2 hsp with h | h <;> omega
  have hself : (e.holds e.port.space (e.first + off) && e.port.has d) = true := by
    simp only [PortRange.holds, Bool.and_eq_true, beq_iff_eq, decide_eq_true_eq]
    exact ⟨⟨⟨trivial, by omega, by omega⟩, by omega⟩, hd⟩
  unfold AddrMap.select
  have hf : (m.find? fun x => x.holds e.port.space (e.first + off) && x.port.has d) = some e := by
    obtain ⟨x, hx⟩ := Option.isSome_iff_exists.1 (List.find?_isSome.2
      (⟨e, he, hself⟩ : ∃ x ∈ m, (x.holds e.port.space (e.first + off) && x.port.has d) = true))
    have h := List.find?_some hx
    rw [hx, holds_iff x (List.mem_of_find?_eq_some hx) h]
  simp [hf]

/-- What is selected is a range of the map that holds the address, in a direction the port has (R102). -/
theorem select_eq_some {m : AddrMap} {sp : Space} {d : Dir} {a : Nat} {p : Port} {off : Nat}
    (h : m.select sp d a = some (p, off)) :
    ∃ e ∈ m, e.port = p ∧ p.space = sp ∧ p.has d = true ∧ e.first + off = a ∧ off < p.size := by
  simp only [AddrMap.select, Option.map_eq_some_iff] at h
  obtain ⟨e, he, heq⟩ := h
  have hs := List.find?_some he
  simp only [PortRange.holds, Bool.and_eq_true, beq_iff_eq, decide_eq_true_eq] at hs
  simp only [Prod.mk.injEq] at heq
  obtain ⟨rfl, rfl⟩ := heq
  exact ⟨e, List.mem_of_find?_eq_some he, rfl, hs.1.1.1, hs.2, by omega, by omega⟩

/-- The address written for a port under a well-formed map (R110). -/
theorem address_eq {m : AddrMap} (hm : m.wf) {e : PortRange} (he : e ∈ m) (off : Nat) :
    m.address (some e.port) off = BitVec.ofNat 16 (e.first + off) := by
  have uniq : ∀ x ∈ m, x.port = e.port → x = e := by
    intro x hx hxe
    by_contra hne
    exact (AddrMap.apart hm hx he hne).1 hxe
  unfold AddrMap.address
  have hf : (m.find? fun x => x.port == e.port) = some e := by
    obtain ⟨x, hx⟩ := Option.isSome_iff_exists.1
      (List.find?_isSome.2 (⟨e, he, by simp⟩ : ∃ x ∈ m, (x.port == e.port) = true))
    rw [hx, uniq x (List.mem_of_find?_eq_some hx) (by simpa using List.find?_some hx)]
  simp [hf]

/-! ### Trace words -/

/-- A trace word as a number (R101). -/
theorem toNat_pack (k : BitVec 4) (a : BusAddr) (v : Byte) :
    (TraceWord.pack k a v).toNat = k.toNat * 2 ^ 28 + a.toNat * 2 ^ 8 + v.toNat := by
  have h : (TraceWord.pack k a v).toNat = (BitVec.append (BitVec.append (BitVec.append k 0#4) a) v).toNat := rfl
  have h1 := BitVec.toNat_append (BitVec.append (BitVec.append k 0#4) a) v
  have h2 := BitVec.toNat_append (BitVec.append k 0#4) a
  have h3 := BitVec.toNat_append k 0#4
  rw [h]
  change (BitVec.append (BitVec.append k 0#4) a ++ v).toNat = _
  rw [h1]
  change ((BitVec.append k 0#4 ++ a).toNat <<< 8 ||| v.toNat) = _
  rw [h2]
  change (((k ++ 0#4).toNat <<< 16 ||| a.toNat) <<< 8 ||| v.toNat) = _
  rw [h3]
  have hv := v.isLt
  have ha := a.isLt
  rw [← Nat.shiftLeft_add_eq_or_of_lt (by simpa using hv), ← Nat.shiftLeft_add_eq_or_of_lt (by simpa using ha),
    ← Nat.shiftLeft_add_eq_or_of_lt (by simp)]
  simp only [Nat.shiftLeft_eq, BitVec.toNat_ofNat]
  omega

@[simp] theorem kindBits_pack (k : BitVec 4) (a : BusAddr) (v : Byte) : (TraceWord.pack k a v).kindBits = k := by
  have := k.isLt; have := a.isLt; have := v.isLt; have h0 : (0 : BitVec 4).toNat = 0 := rfl
  exact BitVec.eq_of_toNat_eq (by
    simp only [TraceWord.kindBits, BitVec.extractLsb'_toNat, toNat_pack, Nat.shiftRight_eq_div_pow]; omega)

@[simp] theorem zeroBits_pack (k : BitVec 4) (a : BusAddr) (v : Byte) : (TraceWord.pack k a v).zeroBits = 0 := by
  have := k.isLt; have := a.isLt; have := v.isLt; have h0 : (0 : BitVec 4).toNat = 0 := rfl
  exact BitVec.eq_of_toNat_eq (by
    simp only [TraceWord.zeroBits, BitVec.extractLsb'_toNat, toNat_pack, Nat.shiftRight_eq_div_pow]; omega)

@[simp] theorem addrBits_pack (k : BitVec 4) (a : BusAddr) (v : Byte) : (TraceWord.pack k a v).addrBits = a := by
  have := k.isLt; have := a.isLt; have := v.isLt; have h0 : (0 : BitVec 4).toNat = 0 := rfl
  exact BitVec.eq_of_toNat_eq (by
    simp only [TraceWord.addrBits, BitVec.extractLsb'_toNat, toNat_pack, Nat.shiftRight_eq_div_pow]; omega)

@[simp] theorem dataBits_pack (k : BitVec 4) (a : BusAddr) (v : Byte) : (TraceWord.pack k a v).dataBits = v := by
  have := k.isLt; have := a.isLt; have := v.isLt; have h0 : (0 : BitVec 4).toNat = 0 := rfl
  exact BitVec.eq_of_toNat_eq (by
    simp only [TraceWord.dataBits, BitVec.extractLsb'_toNat, toNat_pack, Nat.shiftRight_eq_div_pow]; omega)

/-- A word with bits 27:24 zero is made of its fields (R101). -/
theorem pack_fields (w : TraceWord) (h : w.zeroBits = 0) :
    TraceWord.pack w.kindBits w.addrBits w.dataBits = w := by
  have hz := congrArg BitVec.toNat h
  have := w.isLt; have h0 : (0 : BitVec 4).toNat = 0 := rfl
  apply BitVec.eq_of_toNat_eq
  simp only [TraceWord.zeroBits, TraceWord.kindBits, TraceWord.addrBits, TraceWord.dataBits, BitVec.extractLsb'_toNat,
    toNat_pack, Nat.shiftRight_eq_div_pow] at *
  omega

/-! ### The bridge's address -/

/-- The address after an indirect write: the low byte increments modulo 256, the high byte stays (R306). -/
theorem addrNext_toNat (a : BusAddr) : (addrNext a).toNat = 256 * (a.toNat / 256) + (a.toNat + 1) % 256 := by
  have ha := a.isLt
  have h1 : (1 : BitVec 8).toNat = 1 := rfl
  have hl : (a.extractLsb' 0 8 + 1).toNat < 2 ^ 8 := (a.extractLsb' 0 8 + 1).isLt
  rw [addrNext, BitVec.toNat_append, ← Nat.shiftLeft_add_eq_or_of_lt hl]
  simp only [Nat.shiftLeft_eq, BitVec.toNat_add, BitVec.extractLsb'_toNat, Nat.shiftRight_eq_div_pow, h1]
  omega

end Sys2Proof.Machine
end

