-- ==== Sys2Proof/Laws/Frame.lean ====
section
/-! SUPPORT. The steps of FRAME, one lemma each: what a pixel, a dirty bit or a collision bit is after the step. -/

namespace Sys2Proof.Machine

/-! ### Steps 1 to 3 -/

/-- A tile's pens after the decode step (R170). -/
theorem tilePen_decodeDirty (s : State) (b : Bank) {t r x : Nat} (ht : t < 256) (hr : r < 8) (hx : x < 8) :
    s.decodeDirty.tilePen b t r x =
      if s.tileIsDirty b t then unpackTile s.cfg s.cram b t r x else s.tilePen b t r x := by
  simp only [State.tilePen, State.decodeDirty_tilePix, PerBank.get_ofFn, State.decodedTiles]
  rw [Tab.get_tabulate _ (by omega), show (64 * t + 8 * r + x) / 64 = t by omega,
    show (64 * t + 8 * r + x) / 8 % 8 = r by omega, show (64 * t + 8 * r + x) % 8 = x by omega]

/-- A pattern's pens after the decode step (R170). -/
theorem spatPen_decodeDirty (s : State) (b : Bank) {p r x : Nat} (hp : p < 64) (hr : r < 16) (hx : x < 16) :
    s.decodeDirty.spatPen b p r x =
      if s.spatIsDirty b p then unpackSpat s.cfg s.cram b p r x else s.spatPen b p r x := by
  simp only [State.spatPen, State.decodeDirty_spatPix, PerBank.get_ofFn, State.decodedSpats]
  rw [Tab.get_tabulate _ (by omega), show (256 * p + 16 * r + x) / 256 = p by omega,
    show (256 * p + 16 * r + x) / 16 % 16 = r by omega, show (256 * p + 16 * r + x) % 16 = x by omega]

@[simp] theorem tileIsDirty_decodeDirty (s : State) (b : Bank) (t : Nat) : s.decodeDirty.tileIsDirty b t = false := by
  cases b <;> simp [State.tileIsDirty, State.decodeDirty, PerBank.get]

@[simp] theorem spatIsDirty_decodeDirty (s : State) (b : Bank) (p : Nat) : s.decodeDirty.spatIsDirty b p = false := by
  cases b <;> simp [State.spatIsDirty, State.decodeDirty, PerBank.get]

/-- The dirty cells after the decode step (R170, R176). -/
theorem cellIsDirty_decodeDirty (s : State) (n : Plane) {c : Nat} (hc : c < 1024) :
    s.decodeDirty.cellIsDirty n c =
      (s.cellIsDirty n c ||
        (s.cfg.tilePropagate && s.tileIsDirty (s.pbank n) ((s.vram.get n).read c).toNat)) := by
  simp only [State.cellIsDirty, State.decodeDirty_cellDirty, PerPlane.get_ofFn, State.propagated]
  split
  · simp [*, get_markWhere (n := 10) _ _ hc]
  · simp_all

/-- A plane's pixel after the redraw (R190). -/
theorem px_redrawCells (s : State) (n : Plane) {x y : Nat} (hx : x < 256) (hy : y < 256) :
    (s.redrawCells.pf.get n).px x y =
      if s.cellIsDirty n (s.cellAt x y) then s.cellPixel n (s.cellAt x y) (y % 8) (x % 8)
      else (s.pf.get n).px x y := by
  simp only [State.redrawCells_pf, PerPlane.get_ofFn, State.redrawn]
  rw [Tab.px_bitmap _ hx hy]

@[simp] theorem cellIsDirty_redrawCells (s : State) (n : Plane) (c : Nat) :
    s.redrawCells.cellIsDirty n c = false := by
  cases n <;> simp [State.cellIsDirty, State.redrawCells, PerPlane.get]

/-- The cell drawn over a pixel of the place of cell c is c (R191). -/
theorem cellAt_place (s : State) {c i j : Nat} (hc : c < 1024) (hi : i < 8) (hj : j < 8) :
    s.cellAt (8 * mirrored s.gfx 31 (c % 32) + i) (8 * mirrored s.gfy 31 (c / 32) + j) = c := by
  simp only [State.cellAt, mirrored]
  cases s.gfx <;> cases s.gfy <;> simp only [Bool.false_eq_true, if_true, if_false] <;> omega

/-- The place of cell c lies inside the bitmap (R191). -/
theorem place_lt {i : Nat} (g : Bool) (k : Nat) (hk : k < 32) (hi : i < 8) : 8 * mirrored g 31 k + i < 256 := by
  cases g <;> simp only [mirrored, Bool.false_eq_true, if_true, if_false] <;> omega

/-- Steps 1 to 3 change the caches, the bitmaps and the dirty bits alone. -/
theorem prepared_frame (s : State) :
    s.prepared = { s with
      tilePix := s.prepared.tilePix
      spatPix := s.prepared.spatPix
      tileDirty := s.prepared.tileDirty
      spatDirty := s.prepared.spatDirty
      cellDirty := s.prepared.cellDirty
      pf := s.prepared.pf } := rfl

/-! ### Boxes and the sprite scan -/

/-- The points of a 16 x 16 box (R211, R197). -/
theorem boxPoint_eq_some {ox oy x y : Int} {j k : Nat} :
    boxPoint ox oy x y = some (j, k) ↔ j < 16 ∧ k < 16 ∧ y = oy + j ∧ x = ox + k := by
  unfold boxPoint
  split
  · simp only [Option.some.injEq, Prod.mk.injEq]; omega
  · simp only [reduceCtorEq, false_iff]; omega

theorem boxPoint_isSome {ox oy x y : Int} :
    (boxPoint ox oy x y).isSome = true ↔ oy ≤ y ∧ y ≤ oy + 15 ∧ ox ≤ x ∧ x ≤ ox + 15 := by
  unfold boxPoint
  split <;> simp <;> omega

/-- The scan holds the active slots, each as `State.sprite` reads it (R210). -/
theorem mem_spriteScan {s : State} {p : Sprite} :
    p ∈ s.spriteScan ↔ ∃ i < 32, s.slotOn i = true ∧ p = s.sprite i := by
  simp only [State.spriteScan, State.liveSlots, List.mem_map, List.mem_filter, List.mem_range]
  exact ⟨fun ⟨i, ⟨h1, h2⟩, h3⟩ => ⟨i, h1, h2, h3.symm⟩, fun ⟨i, h1, h2, h3⟩ => ⟨i, ⟨h1, h2⟩, h3.symm⟩⟩

/-- An active slot lies outside the hole (R214). -/
theorem not_inHole_of_slotOn {s : State} {i : Nat} (h : s.slotOn i = true) : Config.inHole i = false := by
  simp only [State.slotOn, Bool.and_eq_true, Bool.not_eq_true'] at h
  exact h.1

/-- The boxes of the scratch copy are those of the active slots (R197). -/
theorem inSomeBox_scan {s : State} {x y : Nat} :
    inSomeBox s.spriteScan x y = true ↔ ∃ i < 32, s.slotOn i = true ∧ s.slotBx i ≤ (x : Int) ∧
      (x : Int) ≤ s.slotBx i + 15 ∧ s.slotBy i ≤ (y : Int) ∧ (y : Int) ≤ s.slotBy i + 15 := by
  simp only [inSomeBox, List.any_eq_true, mem_spriteScan, boxPoint_isSome]
  constructor
  · rintro ⟨_, ⟨i, hi, hon, rfl⟩, h1, h2, h3, h4⟩
    exact ⟨i, hi, hon, h3, h4, h1, h2⟩
  · rintro ⟨i, hi, hon, h1, h2, h3, h4⟩
    exact ⟨_, ⟨i, hi, hon, rfl⟩, h3, h4, h1, h2⟩

/-! ### The composite -/

/-- A scratch buffer's pixel after the copy (R197). -/
theorem px_scratchCopy (s : State) (scan : List Sprite) (n : Plane) (old : Tab PalIdx 16) {x y : Nat} (hx : x < 256)
    (hy : y < 256) :
    (s.scratchCopy scan n old).px x y = if inSomeBox scan x y then s.planePixel n x y else old.px x y :=
  Tab.px_bitmap _ hx hy

/-- A second copy changes nothing. -/
theorem scratchCopy_twice (s : State) (scan : List Sprite) (n : Plane) (old : Tab PalIdx 16) :
    s.scratchCopy scan n (s.scratchCopy scan n old) = s.scratchCopy scan n old :=
  Tab.ext_px fun x y hx hy => by
    rw [px_scratchCopy _ _ _ _ hx hy, px_scratchCopy _ _ _ _ hx hy]; split <;> rfl

/-- What one layer leaves on a pixel that held `old` (R195, R211). -/
def State.drawLayerAt (s : State) (scan : List Sprite) (x y : Nat) (old : Option PalIdx) : Layer → Option PalIdx
  | .sprites => s.drawSpritesAt scan x y old
  | .front => s.drawPlaneAt .front x y old
  | .middle => s.drawPlaneAt .middle x y old
  | .back => s.drawPlaneAt .back x y old

/-- A pixel of the surface after some layers: inside `VISIBLE` each layer is drawn on it in turn (R237). -/
theorem px_foldl_drawLayer (s : State) (scan : List Sprite) (ls : List Layer) (c : Canvas) {x y : Nat} (hx : x < 256)
    (hy : y < 256) :
    (ls.foldl (s.drawLayer scan) c).surface.px x y =
      if Rect.holds s.cfg.visible x y then ls.foldl (s.drawLayerAt scan x y) (c.surface.px x y)
      else c.surface.px x y := by
  induction ls generalizing c with
  | nil => simp
  | cons l ls ih =>
    rw [List.foldl_cons, ih, List.foldl_cons]
    have one : (s.drawLayer scan c l).surface.px x y =
        if Rect.holds s.cfg.visible x y then s.drawLayerAt scan x y (c.surface.px x y) l
        else c.surface.px x y := by
      cases l <;> simp only [State.drawLayer, State.drawSprites, State.drawPlane, State.redrawVisible] <;>
        exact Tab.px_bitmap _ hx hy
    rw [one]
    split <;> rfl

/-- A scratch buffer after some layers: copied into exactly if its plane is enabled and among them (R195, R197). -/
theorem pscr_foldl_drawLayer (s : State) (scan : List Sprite) (ls : List Layer) (c : Canvas) (n : Plane) :
    (ls.foldl (s.drawLayer scan) c).pscr.get n =
      if s.pen n = true ∧ n.layer ∈ ls then s.scratchCopy scan n (c.pscr.get n) else c.pscr.get n := by
  induction ls generalizing c with
  | nil => simp
  | cons l ls ih =>
    have one : (s.drawLayer scan c l).pscr.get n =
        if s.pen n = true ∧ n.layer = l then s.scratchCopy scan n (c.pscr.get n) else c.pscr.get n := by
      cases l <;> cases n <;>
        simp only [State.drawLayer, State.drawSprites, State.drawPlane, Plane.layer, reduceCtorEq, and_false, and_true,
          if_false] <;>
        split <;> simp [PerPlane.get_set]
    rw [List.foldl_cons, ih, one]
    by_cases hp : s.pen n = true <;> by_cases hl : n.layer = l <;> by_cases hm : n.layer ∈ ls <;>
      simp [hp, hl, hm, scratchCopy_twice]

/-- A plane drawn on a pixel: its opaque pixel, or what was there (R195). -/
theorem drawPlaneAt_eq (s : State) (n : Plane) (x y : Nat) (old : Option PalIdx) :
    s.drawPlaneAt n x y old = (s.planeOpaque n x y).or old := by
  unfold State.drawPlaneAt State.planeOpaque
  split
  · rename_i h
    simp only [h, true_and]
    split <;> simp_all
  · simp_all

/-- A sprite drawn on a pixel: its opaque pixel, or what was there (R211). -/
theorem drawSpriteAt_eq (s : State) (i : Nat) (x y : Nat) (old : Option PalIdx) :
    s.drawSpriteAt x y old (s.sprite i) = (s.slotOpaque i x y).or old := by
  have one : ∀ ox, s.spriteIndexAt (s.sprite i) ox x y = s.slotOpaqueFrom i ox x y := by
    intro ox
    unfold State.spriteIndexAt State.slotOpaqueFrom boxPoint
    by_cases h : 0 ≤ (y : Int) - (s.sprite i).by' ∧ (y : Int) - (s.sprite i).by' ≤ 15 ∧ 0 ≤ (x : Int) - ox ∧
        (x : Int) - ox ≤ 15
    · have h' : ox ≤ (x : Int) ∧ (x : Int) ≤ ox + 15 ∧ s.slotBy i ≤ (y : Int) ∧ (y : Int) ≤ s.slotBy i + 15 := by
        simp only [State.sprite] at h; omega
      rw [if_pos h, if_pos h']; rfl
    · have h' : ¬(ox ≤ (x : Int) ∧ (x : Int) ≤ ox + 15 ∧ s.slotBy i ≤ (y : Int) ∧ (y : Int) ≤ s.slotBy i + 15) := by
        simp only [State.sprite] at h; omega
      rw [if_neg h, if_neg h']
  simp only [State.drawSpriteAt, State.slotOpaque, one, Option.or_assoc]
  rfl

/-- Drawing things last to first leaves the first opaque one of the list (R211, R237). -/
theorem foldl_or_eq {α β : Type} (f : α → Option β) (l : List α) (old : Option β) :
    l.foldl (fun o a => (f a).or o) old = (l.reverse.findSome? f).or old := by
  induction l generalizing old with
  | nil => simp
  | cons a l ih =>
    rw [List.foldl_cons, ih, List.reverse_cons, List.findSome?_append, Option.or_assoc]
    congr 1
    cases h : f a <;> simp [h]

/-- The sprite layer drawn on a pixel (R211). -/
theorem drawSpritesAt_eq (s : State) (x y : Nat) (old : Option PalIdx) :
    s.drawSpritesAt s.spriteScan x y old = (s.spritesOpaque x y).or old := by
  unfold State.drawSpritesAt State.spritesOpaque
  split
  · have h1 : (s.spriteScan.reverse.foldl (s.drawSpriteAt x y) old) =
        (s.liveSlots.reverse.foldl (fun o i => (s.slotOpaque i x y).or o) old) := by
      rw [State.spriteScan, ← List.map_reverse, List.foldl_map]
      congr 1
      funext o i
      exact drawSpriteAt_eq s i x y o
    rw [h1, foldl_or_eq, List.reverse_reverse, State.liveSlots]
    congr 1
    generalize List.range 32 = l
    induction l with
    | nil => rfl
    | cons i l ih =>
      by_cases h : s.slotOn i = true <;> simp [h, ih, List.findSome?_cons]
  · simp

/-- One layer drawn on a pixel (R237). -/
theorem drawLayerAt_eq (s : State) (x y : Nat) (old : Option PalIdx) (l : Layer) :
    s.drawLayerAt s.spriteScan x y old l = (s.layerOpaque x y l).or old := by
  cases l
  · exact drawSpritesAt_eq s x y old
  all_goals exact drawPlaneAt_eq s _ x y old

/-! ### Collisions -/

theorem near_iff {d : Int} : near d = true ↔ -16 < d ∧ d < 16 := by simp [near]

/-- Two sprites hit exactly if they have a co-opaque pixel (R261). -/
theorem spritesHit_iff (s : State) (i j : Nat) :
    s.spritesHit (s.sprite i) (s.sprite j) = true ↔ s.coOpaque i j := by
  simp only [State.spritesHit, near_iff, Bool.and_eq_true, List.any_eq_true, List.mem_range, State.coOpaque,
    State.sprite]
  constructor
  · rintro ⟨-, r, hr, k, hk, h⟩
    split at h
    · exact absurd h (by simp)
    · rename_i r' k' hb
      obtain ⟨h1, h2, h3, h4⟩ := boxPoint_eq_some.1 hb
      simp only [Bool.and_eq_true, bne_iff_ne] at h
      exact ⟨r, k, r', k', hr, hk, h1, h2, by omega, by omega, h.1, h.2⟩
  · rintro ⟨r, k, r', k', hr, hk, hr', hk', hx, hy, h1, h2⟩
    refine ⟨by omega, r, hr, k, hk, ?_⟩
    have hb : boxPoint (s.slotUx j - s.slotUx i) (s.slotUy j - s.slotUy i) k r = some (r', k') :=
      boxPoint_eq_some.2 ⟨hr', hk', by omega, by omega⟩
    simp only [hb, Bool.and_eq_true, bne_iff_ne]
    exact ⟨h1, h2⟩

/-- Co-opacity is symmetric (R263). -/
theorem coOpaque_symm {s : State} {i j : Nat} (h : s.coOpaque i j) : s.coOpaque j i := by
  obtain ⟨r, k, r', k', hr, hk, hr', hk', hx, hy, h1, h2⟩ := h
  exact ⟨r', k', r, k, hr', hk', hr, hk, hx.symm, hy.symm, h2, h1⟩

/-- A sprite hits a plane exactly if one of its opaque pixels lies on one of the scratch buffer's (R264). -/
theorem planeHit_iff (s : State) (pscr : PerPlane (Tab PalIdx 16)) (i : Nat) (n : Plane) :
    s.planeHit pscr (s.sprite i) n = true ↔ State.overPlane { s with pscr := pscr } i n := by
  unfold State.planeHit
  simp only [List.any_eq_true, List.mem_range]
  constructor
  · rintro ⟨r, hr, k, hk, h⟩
    rw [Bool.and_eq_true, Bool.and_eq_true] at h
    obtain ⟨⟨hp, hb⟩, hq⟩ := h
    obtain ⟨hx0, hx1, hy0, hy1⟩ := of_decide_eq_true hb
    refine ⟨r, k, (s.testX (s.sprite i) + k).toNat, (s.testY (s.sprite i) + r).toNat, hr, hk, by omega, by omega, ?_, ?_,
      bne_iff_ne.1 hp, bne_iff_ne.1 hq⟩
    · rw [Int.toNat_of_nonneg hx0]; rfl
    · rw [Int.toNat_of_nonneg hy0]; rfl
  · rintro ⟨r, k, x, y, hr, hk, hx, hy, hxe, hye, hp, hq⟩
    have hxe' : s.testX (s.sprite i) + k = x := hxe.symm
    have hye' : s.testY (s.sprite i) + r = y := hye.symm
    refine ⟨r, hr, k, hk, ?_⟩
    rw [Bool.and_eq_true, Bool.and_eq_true]
    refine ⟨⟨bne_iff_ne.2 hp, decide_eq_true ⟨by omega, by omega, by omega, by omega⟩⟩, bne_iff_ne.2 ?_⟩
    rw [hxe', hye', Int.toNat_natCast, Int.toNat_natCast]
    exact hq

/-- The pairs of a list without repeats: any two different elements, in one of the two orders. -/
theorem mem_pairsOf {α : Type} {l : List α} {a b : α} (h : (a, b) ∈ pairsOf l) : a ∈ l ∧ b ∈ l := by
  induction l with
  | nil => simp [pairsOf] at h
  | cons c l ih =>
    simp only [pairsOf, List.mem_append, List.mem_map, Prod.mk.injEq] at h
    rcases h with ⟨d, hd, rfl, rfl⟩ | h
    · exact ⟨by simp, by simp [hd]⟩
    · exact ⟨by simp [(ih h).1], by simp [(ih h).2]⟩

theorem pairsOf_complete {α : Type} {l : List α} {a b : α} (ha : a ∈ l) (hb : b ∈ l) (hne : a ≠ b) :
    (a, b) ∈ pairsOf l ∨ (b, a) ∈ pairsOf l := by
  induction l with
  | nil => simp at ha
  | cons c l ih =>
    simp only [pairsOf, List.mem_append, List.mem_map, Prod.mk.injEq]
    rcases List.mem_cons.1 ha with ea | ha' <;> rcases List.mem_cons.1 hb with eb | hb'
    · exact absurd (ea.trans eb.symm) hne
    · exact .inl (.inl ⟨b, hb', ea.symm, rfl⟩)
    · exact .inr (.inl ⟨a, ha', eb.symm, rfl⟩)
    · exact (ih ha' hb').imp .inr .inr

/-- In a list without repeats no pair repeats an element. -/
theorem ne_of_mem_pairsOf {α : Type} {l : List α} (hl : l.Nodup) {a b : α} (h : (a, b) ∈ pairsOf l) : a ≠ b := by
  induction l with
  | nil => simp [pairsOf] at h
  | cons c l ih =>
    obtain ⟨hc, hl⟩ := List.nodup_cons.1 hl
    simp only [pairsOf, List.mem_append, List.mem_map, Prod.mk.injEq] at h
    rcases h with ⟨d, hd, rfl, rfl⟩ | h
    · rintro rfl; exact hc hd
    · exact ih hl h

/-- The scan has no repeats. -/
theorem spriteScan_nodup (s : State) : s.spriteScan.Nodup := by
  have : (s.liveSlots).Nodup := List.Nodup.filter _ List.nodup_range
  exact this.map fun i j h => by simpa [State.sprite] using congrArg Sprite.slot h

/-- A collision bit after the tests of some pairs (R261). -/
theorem getLsbD_foldl_hitPair (s : State) (ps : List (Sprite × Sprite)) (c : Vector Byte 4) (r k : Nat) :
    (regGet (ps.foldl s.hitPair c) r).getLsbD k = true ↔
      (regGet c r).getLsbD k = true ∨ ∃ pq ∈ ps, s.spritesHit pq.1 pq.2 = true ∧
        (r = min (pq.1.slot / 8) 2 ∧ k = pq.1.slot % 8 ∨ r = min (pq.2.slot / 8) 2 ∧ k = pq.2.slot % 8) := by
  induction ps generalizing c with
  | nil => simp
  | cons pq ps ih =>
    rw [List.foldl_cons, ih]
    have one : (regGet (s.hitPair c pq) r).getLsbD k = true ↔ (regGet c r).getLsbD k = true ∨
        s.spritesHit pq.1 pq.2 = true ∧
        (r = min (pq.1.slot / 8) 2 ∧ k = pq.1.slot % 8 ∨ r = min (pq.2.slot / 8) 2 ∧ k = pq.2.slot % 8) := by
      unfold State.hitPair
      split
      · simp only [regGet_setSpriteBit, Bool.or_eq_true, Bool.and_eq_true, decide_eq_true_eq, *, true_and, or_assoc]
      · simp only [*, Bool.false_eq_true, false_and, or_false]
    simp only [one, List.mem_cons, exists_eq_or_imp, or_assoc]

/-- A collision bit after the tests of some sprites against some planes (R264, R265). -/
theorem getLsbD_foldl_hitPlane (s : State) (pscr : PerPlane (Tab PalIdx 16)) (ps : List (Sprite × Plane))
    (c : Vector Byte 4) (r k : Nat) :
    (regGet (ps.foldl (s.hitPlane pscr) c) r).getLsbD k = true ↔
      (regGet c r).getLsbD k = true ∨ r = 3 ∧ ∃ pn ∈ ps, s.pen pn.2 = true ∧ s.planeHit pscr pn.1 pn.2 = true ∧
        k = pn.2.number := by
  induction ps generalizing c with
  | nil => simp
  | cons pn ps ih =>
    rw [List.foldl_cons, ih]
    have one : (regGet (s.hitPlane pscr c pn) r).getLsbD k = true ↔ (regGet c r).getLsbD k = true ∨
        r = 3 ∧ s.pen pn.2 = true ∧ s.planeHit pscr pn.1 pn.2 = true ∧ k = pn.2.number := by
      unfold State.hitPlane
      split
      · rename_i h
        simp only [Bool.and_eq_true] at h
        simp only [regGet_setPlaneBit, Bool.or_eq_true, Bool.and_eq_true, decide_eq_true_eq, h, true_and]
      · rename_i h
        simp only [Bool.and_eq_true] at h
        exact ⟨.inl, fun h' => h'.elim id fun h'' => absurd ⟨h''.2.1, h''.2.2.1⟩ h⟩
    simp only [one, List.mem_cons, exists_eq_or_imp, or_assoc, and_or_left]

/-- What a FRAME can change (R240). -/
theorem rendered_frame (s : State) :
    s.rendered = { s with
      tilePix := s.rendered.tilePix
      spatPix := s.rendered.spatPix
      tileDirty := s.rendered.tileDirty
      spatDirty := s.rendered.spatDirty
      cellDirty := s.rendered.cellDirty
      pf := s.rendered.pf
      pscr := s.rendered.pscr
      coll := s.rendered.coll
      out := s.rendered.out } := rfl

end Sys2Proof.Machine
end

