-- ==== Sys2Proof/Laws/PerInstr.lean ====
section
/-! SUPPORT. Statements about every transaction, one lemma each. -/

namespace Sys2Proof.Laws.EncodeFields

open Sys2Proof.Machine

/-- The fields of the word written for a transaction (spec/30_encoding.md R101, R110): the kind, four zero bits, the
address of the operand's offset in its port, the data byte; under every address map. -/
def Statement (i : Instr) : Prop :=
  ∀ m : AddrMap, (encode m i).kindBits = i.kind.bits ∧ (encode m i).zeroBits = 0 ∧
    (encode m i).addrBits = m.address i.port i.offset ∧ (encode m i).dataBits = i.data

/-- The fields of a packed word are what was packed. -/
theorem of_pack (i : Instr) : Statement i := fun _ =>
  ⟨kindBits_pack _ _ _, zeroBits_pack _ _ _, addrBits_pack _ _ _, dataBits_pack _ _ _⟩

theorem cwCram (off : Nat) (v : Byte) : Statement (.cwCram off v) := of_pack _
theorem cwVram0 (off : Nat) (v : Byte) : Statement (.cwVram0 off v) := of_pack _
theorem cwVram1 (off : Nat) (v : Byte) : Statement (.cwVram1 off v) := of_pack _
theorem cwVram2 (off : Nat) (v : Byte) : Statement (.cwVram2 off v) := of_pack _
theorem crVram0 (off : Nat) : Statement (.crVram0 off) := of_pack _
theorem crVram1 (off : Nat) : Statement (.crVram1 off) := of_pack _
theorem crVram2 (off : Nat) : Statement (.crVram2 off) := of_pack _
theorem cwColscroll (off : Nat) (v : Byte) : Statement (.cwColscroll off v) := of_pack _
theorem crColscroll (off : Nat) : Statement (.crColscroll off) := of_pack _
theorem cwSpram (off : Nat) (v : Byte) : Statement (.cwSpram off v) := of_pack _
theorem crSpram (off : Nat) : Statement (.crSpram off) := of_pack _
theorem cwPalram (off : Nat) (v : Byte) : Statement (.cwPalram off v) := of_pack _
theorem cwPriority (v : Byte) : Statement (.cwPriority v) := of_pack _
theorem cwScroll (off : Nat) (v : Byte) : Statement (.cwScroll off v) := of_pack _
theorem cwColorbank (off : Nat) (v : Byte) : Statement (.cwColorbank off v) := of_pack _
theorem crColl (off : Nat) : Statement (.crColl off) := of_pack _
theorem cwCollclr (v : Byte) : Statement (.cwCollclr v) := of_pack _
theorem cwGfxptr (off : Nat) (v : Byte) : Statement (.cwGfxptr off v) := of_pack _
theorem crGfxrom : Statement (.crGfxrom) := of_pack _
theorem cwBanksw (v : Byte) : Statement (.cwBanksw v) := of_pack _
theorem cwViden (v : Byte) : Statement (.cwViden v) := of_pack _
theorem cwMcudata (v : Byte) : Statement (.cwMcudata v) := of_pack _
theorem crMcudata : Statement (.crMcudata) := of_pack _
theorem crMcustatus : Statement (.crMcustatus) := of_pack _
theorem mrPorta : Statement (.mrPorta) := of_pack _
theorem mwPorta (v : Byte) : Statement (.mwPorta v) := of_pack _
theorem mwPortb (v : Byte) : Statement (.mwPortb v) := of_pack _
theorem mrPortb : Statement (.mrPortb) := of_pack _
theorem mrPortc : Statement (.mrPortc) := of_pack _
theorem cwAlpinecode (v : Byte) : Statement (.cwAlpinecode v) := of_pack _
theorem crAlpinein : Statement (.crAlpinein) := of_pack _
theorem sync : Statement (.sync) := of_pack _
theorem frame : Statement (.frame) := of_pack _
theorem reset : Statement (.reset) := of_pack _

end Sys2Proof.Laws.EncodeFields
end

