-- ==== Sys2Proof/Tests/Slice0.lean ====
section
/-! SUPPORT. The model's own tests: ill-formed terms, trace words written out from spec/30_encoding.md, single events of
spec/95_test_vectors.md, and for each statement with hypotheses a state that meets them. -/

namespace Sys2Proof.Tests

open Sys2Proof.Machine

/-! ### Ill-formed terms (R71, R102) -/

theorem test_illformed_cram : WellFormed (.cwCram 0x3000 0) = false := by decide
theorem test_illformed_cwVram0 : WellFormed (.cwVram0 0x400 0) = false := by decide
theorem test_illformed_cwVram1 : WellFormed (.cwVram1 0x400 0) = false := by decide
theorem test_illformed_cwVram2 : WellFormed (.cwVram2 0x400 0) = false := by decide
theorem test_illformed_crVram0 : WellFormed (.crVram0 0x400) = false := by decide
theorem test_illformed_crVram1 : WellFormed (.crVram1 0x400) = false := by decide
theorem test_illformed_crVram2 : WellFormed (.crVram2 0x400) = false := by decide
theorem test_illformed_cwColscroll : WellFormed (.cwColscroll 0x60 0) = false := by decide
theorem test_illformed_crColscroll : WellFormed (.crColscroll 0x60) = false := by decide
theorem test_illformed_cwSpram : WellFormed (.cwSpram 0x80 0) = false := by decide
theorem test_illformed_crSpram : WellFormed (.crSpram 0x80) = false := by decide
theorem test_illformed_cwPalram : WellFormed (.cwPalram 0x80 0) = false := by decide
theorem test_illformed_cwScroll : WellFormed (.cwScroll 6 0) = false := by decide
theorem test_illformed_cwColorbank : WellFormed (.cwColorbank 2 0) = false := by decide
theorem test_illformed_crColl : WellFormed (.crColl 4) = false := by decide
theorem test_illformed_cwGfxptr : WellFormed (.cwGfxptr 2 0) = false := by decide

/-! ### One word of every transaction, from the fields of R101 and the addresses of R102 -/

theorem test_decode_cwCram : decodeTableWord 32 0x00BFFFA5 = some (.cwCram 0x2FFF 0xA5) := by decide
theorem test_decode_cwVram0 : decodeTableWord 32 0x00C44102 = some (.cwVram0 0x041 0x02) := by decide
theorem test_decode_cwVram1 : decodeTableWord 32 0x00C8FF03 = some (.cwVram1 0x0FF 0x03) := by decide
theorem test_decode_cwVram2 : decodeTableWord 32 0x00CFFF04 = some (.cwVram2 0x3FF 0x04) := by decide
theorem test_decode_crVram0 : decodeTableWord 32 0x10C40000 = some (.crVram0 0) := by decide
theorem test_decode_crVram1 : decodeTableWord 32 0x10CBFF00 = some (.crVram1 0x3FF) := by decide
theorem test_decode_crVram2 : decodeTableWord 32 0x10CC2100 = some (.crVram2 0x021) := by decide
theorem test_decode_cwColscroll : decodeTableWord 32 0x00D05F7F = some (.cwColscroll 0x5F 0x7F) := by decide
theorem test_decode_crColscroll : decodeTableWord 32 0x10D04000 = some (.crColscroll 0x40) := by decide
theorem test_decode_cwSpram : decodeTableWord 32 0x00D12580 = some (.cwSpram 0x25 0x80) := by decide
theorem test_decode_crSpram : decodeTableWord 32 0x10D17F00 = some (.crSpram 0x7F) := by decide
theorem test_decode_cwPalram : decodeTableWord 32 0x00D27FFE = some (.cwPalram 0x7F 0xFE) := by decide
theorem test_decode_cwPriority : decodeTableWord 32 0x00D300E1 = some (.cwPriority 0xE1) := by decide
theorem test_decode_cwScroll : decodeTableWord 32 0x00D505F0 = some (.cwScroll 5 0xF0) := by decide
theorem test_decode_cwColorbank : decodeTableWord 32 0x00D50603 = some (.cwColorbank 0 0x03) := by decide
theorem test_decode_crColl : decodeTableWord 32 0x10D40300 = some (.crColl 3) := by decide
theorem test_decode_cwCollclr : decodeTableWord 32 0x00D50855 = some (.cwCollclr 0x55) := by decide
theorem test_decode_cwGfxptr : decodeTableWord 32 0x00D50A7F = some (.cwGfxptr 1 0x7F) := by decide
theorem test_decode_crGfxrom : decodeTableWord 32 0x10D40400 = some .crGfxrom := by decide
theorem test_decode_cwBanksw : decodeTableWord 32 0x00D50E80 = some (.cwBanksw 0x80) := by decide
theorem test_decode_cwViden : decodeTableWord 32 0x00D60090 = some (.cwViden 0x90) := by decide
theorem test_decode_cwMcudata : decodeTableWord 32 0x00880042 = some (.cwMcudata 0x42) := by decide
theorem test_decode_crMcudata : decodeTableWord 32 0x10880000 = some .crMcudata := by decide
theorem test_decode_crMcustatus : decodeTableWord 32 0x10880100 = some .crMcustatus := by decide
theorem test_decode_mrPorta : decodeTableWord 32 0x30000000 = some .mrPorta := by decide
theorem test_decode_mwPorta : decodeTableWord 32 0x200000A5 = some (.mwPorta 0xA5) := by decide
theorem test_decode_mwPortb : decodeTableWord 32 0x200001FD = some (.mwPortb 0xFD) := by decide
theorem test_decode_mrPortb : decodeTableWord 32 0x30000100 = some .mrPortb := by decide
theorem test_decode_mrPortc : decodeTableWord 32 0x30000200 = some .mrPortc := by decide
theorem test_decode_cwAlpinecode : decodeTableWord 32 0x00D50F05 = some (.cwAlpinecode 0x05) := by decide
theorem test_decode_crAlpinein : decodeTableWord 32 0x10D40B00 = some .crAlpinein := by decide
theorem test_decode_sync : decodeTableWord 32 0x40000000 = some .sync := by decide
theorem test_decode_frame : decodeTableWord 32 0x50000000 = some .frame := by decide
theorem test_decode_reset : decodeTableWord 32 0x60000000 = some .reset := by decide

/-! ### Rejected words (R108; V-B16) -/

theorem test_reject_kind : decode AddrMap.standard 0xF0000000 = .error .reservedKind := by decide
theorem test_reject_zero_bits : decode AddrMap.standard 0x08880042 = .error .reservedBits := by decide
theorem test_reject_host_operand : decode AddrMap.standard 0x50000001 = .error .hostOperand := by decide
theorem test_reject_unmapped : decode AddrMap.standard 0x00C00000 = .error .unmappedAddress := by decide
theorem test_reject_read_cram : decode AddrMap.standard 0x10900000 = .error .missingDirection := by decide
theorem test_reject_write_coll : decode AddrMap.standard 0x00D40000 = .error .missingDirection := by decide
theorem test_reject_other_space : decode AddrMap.standard 0x30880000 = .error .unmappedAddress := by decide

/-! ### Encodings of the spec's words -/

theorem test_encode_cram : encode AddrMap.standard (.cwCram 0x1010 0x81) = 0x00A01081 := by decide
theorem test_encode_portc : encode AddrMap.standard .mrPortc = 0x30000200 := by decide

/-! ### States for the tests -/

/-- The state after an event, or the state itself where the event is refused. -/
def after (i : Instr) (s : State) : State :=
  match exec i s with
  | .next t => t
  | .fault _ => s
  | .refused _ => s

/-- The byte a read event returns. -/
def answer (i : Instr) (s : State) : Option Byte := (after i s).out.data

/-- The state after RESET with every dirty bit clear, as after a FRAME. -/
def clean : State :=
  { State.reset with
    tileDirty := ⟨Tab.fill false 8, Tab.fill false 8⟩
    spatDirty := ⟨Tab.fill false 6, Tab.fill false 6⟩
    cellDirty := ⟨Tab.fill false 10, Tab.fill false 10, Tab.fill false 10⟩ }

/-- `PROM_F` of 95_test_vectors.md. -/
def promF : List (BitVec 4) :=
  [4, 1, 8, 2, 0, 0, 0xC, 3, 0, 0, 0, 0, 0, 0, 0, 0] ++ [4, 1, 8, 3, 0, 0, 0xC, 0, 0, 0, 0, 2, 0, 0, 0, 0]
    ++ List.replicate 224 0

/-- The default configuration with `PROM_F`. -/
def cfgF : Config := { Config.standard with prom := promF }

/-- Setup PF-A of 95_test_vectors.md. -/
def pfA : State :=
  { State.init cfgF with
    cram := [(0x0010, 0x80), (0x0810, 0x01), (0x1010, 0x81)]
    vram := ⟨[(0x041, 2)], [], []⟩
    colorbank := #v[0x03, 0]
    viden := 0x10 }

/-- The sprite RAM with every slot parked. -/
def parked : Memory := (List.range 32).map fun i => (4 * i + 1, 0xF0)

/-- The sprite RAM with a slot's four bytes written. -/
def place (m : Memory) (i : Nat) (x y flags code : Byte) : Memory :=
  Memory.write (Memory.write (Memory.write (Memory.write m (4 * i) x) (4 * i + 1) y) (4 * i + 2) flags) (4 * i + 3) code

/-- Program P3 of 95_test_vectors.md before its first FRAME, the other slots parked: two sprites over a tile. -/
def p3 : State :=
  { State.init cfgF with
    cram := [(0x0028, 0x80), (0x0030, 0x40)]
    vram := ⟨[(0x1C6, 6)], [], []⟩
    spram := place (place parked 0 0x36 0x80 0 1) 9 0x36 0x80 0 1
    viden := 0x90 }

/-! ### Single events -/

theorem test_cram_marks : (after (.cwCram 0x0A13 0x80) clean).tileIsDirty .bank0 0x42 = true ∧
    (after (.cwCram 0x0A13 0x80) clean).spatIsDirty .bank0 0x10 = true := by decide
theorem test_cram_marks_last : (after (.cwCram 0x2FFF 0xFF) clean).tileIsDirty .bank1 0xFF = true ∧
    (after (.cwCram 0x2FFF 0xFF) clean).spatIsDirty .bank1 0x3F = true := by decide
theorem test_vram0_marks : (after (.cwVram0 0x021 0x41) clean).cellIsDirty .front 0x21 = true ∧
    (after (.cwVram0 0x021 0x41) clean).cellIsDirty .front 0x20 = false := by decide
theorem test_vram1_same_value : (after (.cwVram1 0 0) clean).cellIsDirty .middle 0 = false := by decide
theorem test_vram2_stores : ((after (.cwVram2 0x3FF 7) clean).vram.get .back).read 0x3FF = 7 := by decide
theorem test_vram_reads : answer (.crVram0 0x041) pfA = some 2 ∧ answer (.crVram1 0x041) pfA = some 0 ∧
    answer (.crVram2 0x041) pfA = some 0 := by decide
theorem test_colscroll : (after (.cwColscroll 0x5F 0x7F) clean).colscroll = [(0x5F, 0x7F)] := by decide
theorem test_colscroll_reads : answer (.crColscroll 0x5F) { clean with colscroll := [(0x5F, 0x7F)] } = some 0x7F := by
  decide
theorem test_spram_hole : (after (.cwSpram 0x40 0x55) clean).spram = [(0x40, 0x55)] := by decide
theorem test_spram_reads : answer (.crSpram 37) p3 = some 0x80 := by decide
theorem test_palram : (after (.cwPalram 1 0xBF) { clean with palram := [(0, 0xFF), (1, 0x38)] }).rgb 0 = ⟨33, 0, 0⟩ := by
  decide
theorem test_priority : (after (.cwPriority 0xE1) clean).priorityCode = 1 := by decide
theorem test_scroll : (after (.cwScroll 0 0x2D) pfA).scrollH .front = -32 := by decide
theorem test_scroll_v : (after (.cwScroll 1 0xFF) pfA).scrollV .front 1 = -255 := by decide
theorem test_colorbank_marks : (after (.cwColorbank 1 0x10) clean).cellIsDirty .front 1023 = true ∧
    (after (.cwColorbank 0 0) clean).cellIsDirty .front 0 = false := by decide
theorem test_coll_reads : answer (.crColl 1) { clean with coll := #v[1, 2, 4, 1] } = some 2 := by decide
theorem test_collclr : (after (.cwCollclr 0x55) { clean with coll := #v[1, 2, 4, 1] }).coll = #v[0, 0, 0, 0] := by
  decide
theorem test_gfxptr : (after (.cwGfxptr 1 0x7F) { clean with gfxptr := #v[0xFF, 0] }).romPointer = 0x7FFF := by
  decide
theorem test_gfxrom_limit : answer .crGfxrom { clean with gfxptr := #v[0x00, 0x80] } = some 0 := by decide
theorem test_gfxrom_wraps : (after .crGfxrom { clean with gfxptr := #v[0xFF, 0xFF] }).gfxptr = #v[0, 0] := by
  decide
theorem test_banksw : (after (.cwBanksw 0x7F) clean).bankSelect = false ∧
    (after (.cwBanksw 0x80) clean).bankSelect = true := by decide
theorem test_viden_marks : (after (.cwViden 0) clean).cellIsDirty .back 5 = false ∧
    (after (.cwViden 1) clean).cellIsDirty .back 5 = true := by decide
theorem test_mcudata_defers : (after (.cwMcudata 0x42) clean).evq = [.cpuData 0x42] ∧
    (after (.cwMcudata 0x42) clean).zready = false := by decide
theorem test_mcudata_reads : answer .crMcudata { clean with toz80 := 0xA5 } = some 0xA5 := by decide
theorem test_status_samples_first : answer .crMcustatus { clean with evq := [.cpuData 0x42] } = some 0xFD ∧
    (after .crMcustatus { clean with evq := [.cpuData 0x42] }).mcuIrq = true := by decide
theorem test_porta_reads : answer .mrPorta { clean with portaIn := 0x42 } = some 0x42 := by decide
theorem test_porta_latches : (after (.mwPorta 0x77) clean).portaOut = 0x77 := by decide
theorem test_portb_all_lines :
    (after (.mwPortb 0x00) { clean with addr16 := 0x3456, portaOut := 0x12, fromz80 := 0x42, busIn := [0x5A] }).addr16
      = 0x1212 ∧
    (after (.mwPortb 0x00) { clean with addr16 := 0x3456, portaOut := 0x12, fromz80 := 0x42, busIn := [0x5A] }).portaIn
      = 0x5A := by decide
theorem test_portb_burst_wraps :
    (after (.mwPortb 0xF7) { clean with addr16 := 0x80FF, portaOut := 0x22 }).addr16 = 0x8000 ∧
    (after (.mwPortb 0xF7) { clean with addr16 := 0x80FF, portaOut := 0x22 }).out.busWrites = [(0x80FF, 0x22)] := by
  decide
theorem test_portb_reads : answer .mrPortb clean = some 0xFF := by decide
theorem test_portc_reads : answer .mrPortc clean = some 0x02 := by decide
theorem test_alpine_code :
    (after (.cwAlpinecode 0x05) (State.init { Config.standard with protVariant := .alpine })).protValue = 0x18 ∧
    (after (.cwAlpinecode 0x99) (State.init { Config.standard with protVariant := .alpine })).protValue = 0x99 := by
  decide
theorem test_alpine_in :
    answer .crAlpinein { State.init { Config.standard with protVariant := .alpine } with
      portIn := [0x03], protValue := 0x18 } = some 0x1B := by decide
theorem test_sync_order :
    (after .sync { clean with evq := [.mcuData 0x10, .mcuData 0x20, .cpuTook] }).toz80 = 0x20 ∧
    (after .sync { clean with evq := [.mcuData 0x10, .mcuData 0x20, .cpuTook] }).zaccept = true := by decide
theorem test_reset_drops_events : (after .reset { clean with evq := [.cpuData 0x42], zaccept := false }).evq = [] ∧
    (after .reset { clean with evq := [.cpuData 0x42], zaccept := false }).zaccept = true := by decide

/-- The unpack of V-T1. -/
theorem test_unpack_tile : (List.range 8).map (unpackTile pfA.cfg pfA.cram .bank0 2 0) = [5, 0, 0, 0, 0, 0, 0, 6] := by
  decide
/-- The decode of `PROM_F` (V-O4). -/
theorem test_prom_decode : ((promDecode cfgF).get 0).layers = [.back, .middle, .front, .sprites] ∧
    ((promDecode cfgF).get 1).layers = [.middle, .back, .front, .sprites] ∧
    ((promDecode cfgF).get 16).layers = [.sprites, .back, .middle, .front] := by decide
/-- V-P1: the two pixels of the tile. -/
theorem test_frame_picture :
    (after .frame pfA).out.frame.map (fun f => (f.surface.px 19 16, f.surface.px 26 16, f.surface.px 20 16))
      = some (some 29, some 30, some 0) := by decide
/-- Program P3, step 13. -/
theorem test_frame_collisions : (after .frame p3).coll = #v[1, 2, 0, 1] := by decide

/-! ### States that meet the hypotheses of the statements

One theorem for each statement with hypotheses, named after it; a clause over a range is met at the range's ends. -/

/-- The state of a variant after RESET. -/
def variant (v : ProtVariant) : State := State.init { Config.standard with protVariant := v }

/-- The state after RESET with one word left in the trace. -/
def given (w : TraceWord) : State := { State.reset with trace := [w] }

/-- A FRAME that is not refused answers its next state. -/
theorem frame_after (s : State) (h : ¬(s.cfg.objexMode = .refuse ∧ s.objex = true)) :
    exec .frame s = .next (after .frame s) := by
  have e : execFrame s = .next s.rendered := if_neg h
  simp only [after, exec, e]

theorem meets_DecodeOfEncode : AddrMap.standard.wf ∧ WellFormed (.cwCram 0x2FFF 0xFF) = true ∧
    WellFormed (.crVram2 0x3FF) = true ∧ WellFormed .mrPortc = true ∧ WellFormed .reset = true := by decide
theorem meets_EncodeOfDecode : AddrMap.standard.wf ∧
    decode AddrMap.standard 0x10C7FF55 = .ok (.crVram0 0x3FF) ∧ (Instr.crVram0 0x3FF).kind = .cr ∧
    decode AddrMap.standard 0x300002FF = .ok .mrPortc ∧ Instr.mrPortc.kind = .mr ∧
    decode AddrMap.standard 0x00900000 = .ok (.cwCram 0 0) ∧ (Instr.cwCram 0 0).kind = .cw := by decide
theorem meets_DecodedIsWellFormed : decode AddrMap.standard 0x00BFFF00 = .ok (.cwCram 0x2FFF 0) := by decide
theorem meets_ReservedWordsRejected : (0x01000000 : TraceWord).extractLsb' 24 4 ≠ 0 ∧
    (0x70000000 : TraceWord).extractLsb' 24 4 = 0 ∧ 7 ≤ ((0x70000000 : TraceWord).extractLsb' 28 4).toNat ∧
    (0xF0000000 : TraceWord).extractLsb' 24 4 = 0 ∧ 7 ≤ ((0xF0000000 : TraceWord).extractLsb' 28 4).toNat := by decide
theorem meets_StepRunsDecoded : (given 0x200001FD).trace = [0x200001FD] ∧
    decode (given 0x200001FD).cfg.addrMap 0x200001FD = .ok (.mwPortb 0xFD) ∧
    decode (given 0x50000000).cfg.addrMap 0x50000000 = .ok .frame := by decide
theorem meets_StepRefusesNoTransaction : State.reset.trace = [] ∧ (given 0x70000000).trace = [0x70000000] ∧
    decode (given 0x70000000).cfg.addrMap 0x70000000 = .error .reservedKind := by decide
theorem meets_CwCramStoresAndMarks : (0 : Nat) < 0x3000 ∧ 0x2FFF < 0x3000 ∧ pfA.cram.wf ∧ pfA.cram.read 0x10 ≠ 0 := by
  decide
theorem meets_CwVramStoresAndMarks : 0x3FF < 0x400 ∧ ∀ n ∈ Plane.all, (pfA.vram.get n).wf := by decide
theorem meets_CrVramReturnsStored : 0x3FF < 0x400 ∧ (pfA.vram.get .front).read 0x041 = 2 := by decide
theorem meets_PlainRamStores : 0x5F < 0x60 ∧ 0x7F < 0x80 ∧ p3.colscroll.wf ∧ p3.spram.wf ∧ p3.palram.wf := by
  decide
theorem meets_PlainReadsReturnStored : 0x5F < 0x60 ∧ 0x7F < 0x80 ∧ 3 < 4 := by decide
theorem meets_StoreThenLoad : p3.MemoriesWf ∧ 0x3FF < 0x400 ∧ 0x5F < 0x60 ∧ 0x7F < 0x80 := by
  refine ⟨⟨by decide, fun n => ?_, by decide, by decide, by decide⟩, by decide⟩
  cases n <;> decide
theorem meets_RegisterArraysStore : 5 < 6 ∧ 1 < 2 := by decide
theorem meets_CwColorbankMarksAllCells : 1 < 2 ∧ 1023 < 1024 := by decide
theorem meets_McuDataPortDefers : State.reset.cfg.protVariant = .mcu := by decide
theorem meets_StatusSamplesThenSyncs : ({ clean with evq := [.cpuData 0x42] } : State).cfg.protVariant = .mcu := by
  decide
theorem meets_StubsWithoutMcu : (variant .alpine).cfg.protVariant ≠ .mcu ∧ (variant .noProt).cfg.protVariant ≠ .mcu := by
  decide
theorem meets_McuPortsAnswer : (variant .mcu).cfg.protVariant = .mcu ∧ Instr.mrPortc.port = some .portc := by decide
theorem meets_MwPortbLines : State.reset.cfg.protVariant = .mcu ∧ State.reset.cfg.portbMap = Config.standardPortb := by
  decide
theorem meets_UnassertedLinesDoNothing : State.reset.cfg.protVariant = .mcu ∧
    ∀ (k : Nat) (l : PortBLine), State.reset.cfg.portbMap[k]? = some (some l) → (0x7F : Byte).getLsbD k = true := by
  refine ⟨rfl, fun k l h => ?_⟩
  rcases Nat.lt_or_ge k 7 with h7 | h7
  · interval_cases k <;> rfl
  · rcases Nat.lt_or_ge 7 k with h8 | h8
    · rw [Vector.getElem?_eq_none h8] at h
      cases h
    · obtain rfl : k = 7 := by omega
      cases h
theorem meets_AlpineLookup : (variant .alpine).cfg.protVariant = .alpine ∧
    (∀ r ∈ [((0x05 : Byte), (0x18 : Byte)), (0x16, 0x08), (0x07, 0), (0x0C, 0), (0x0F, 0), (0x1D, 0x18)], r.1 ≠ 0x99) ∧
    (variant .alpine).cfg.alpineTable = [(0x05, 0x18)] ++ (0x16, 0x08) :: [(0x07, 0), (0x0C, 0), (0x0F, 0), (0x1D, 0x18)] ∧
    ∀ x ∈ [((0x05 : Byte), (0x18 : Byte))], x.1 ≠ 0x16 := ⟨rfl, by simp, rfl, by simp⟩
theorem meets_VariantsRefuse : (variant .noProt).cfg.protVariant ≠ .mcu ∧ (variant .mcu).cfg.protVariant ≠ .alpine := by
  decide
theorem meets_BridgeChangesOnlyWhereSaid :
    (exec (.mwPortb 0xFD) { clean with mcuIrq := true } = .next (after (.mwPortb 0xFD) { clean with mcuIrq := true }) ∧
      Instr.mwPortb 0xFD ≠ .reset ∧ (after (.mwPortb 0xFD) { clean with mcuIrq := true }).mcuIrq = false) ∧
    (exec .crMcudata clean = .next (after .crMcudata clean) ∧ Instr.crMcudata ≠ .sync ∧ Instr.crMcudata ≠ .crMcustatus ∧
      Instr.crMcudata.agent ≠ .mcu) := by
  refine ⟨⟨rfl, by decide, by decide⟩, rfl, by decide⟩
theorem meets_ResetCreatesAllState : pfA.cfg = p3.cfg ∧ pfA.trace = p3.trace ∧ pfA.busIn = p3.busIn ∧
    pfA.portIn = p3.portIn ∧ pfA.draws = p3.draws ∧ pfA.cram ≠ p3.cram :=
  ⟨rfl, rfl, rfl, rfl, rfl, by decide⟩
theorem meets_PromDecodeResolves : 31 < 32 ∧ (promEntry cfgF 0x1B).toNat = 2 := by decide
theorem meets_PromFixtureRows :
    ∀ a v, (a, v) ∈ [((0x00 : Nat), (0 : Nat)), (0x01, 1), (0x03, 2), (0x07, 3), (0x10, 0), (0x11, 1), (0x13, 3), (0x1B, 2)] →
      (promEntry cfgF a).toNat % 4 = v := by
  have h : ∀ av ∈ [((0x00 : Nat), (0 : Nat)), (0x01, 1), (0x03, 2), (0x07, 3), (0x10, 0), (0x11, 1), (0x13, 3), (0x1B, 2)],
      (promEntry cfgF av.1).toNat % 4 = av.2 := by decide
  exact fun a v hav => h (a, v) hav
theorem meets_FrameCompletes : ¬(pfA.cfg.objexMode = .refuse ∧ pfA.viden.getLsbD 2 = true) ∧
    (regGet ({ p3 with coll := #v[0, 0, 0, 7] } : State).coll 3).getLsbD 2 = true := by decide
theorem meets_FrameRefusedWithObjex :
    ({ State.init { Config.standard with objexMode := .refuse } with viden := 0x04 } : State).cfg.objexMode = .refuse ∧
    ({ State.init { Config.standard with objexMode := .refuse } with viden := 0x04 } : State).viden.getLsbD 2 = true := by
  decide
theorem meets_FrameDecodesDirty : exec .frame pfA = .next (after .frame pfA) ∧ pfA.cfg.planeWeight = ⟨0, 1, 2⟩ ∧
    pfA.cfg.rowBitOrder = .msbFirst ∧ pfA.tileIsDirty .bank1 255 = true ∧ clean.spatIsDirty .bank1 63 = false :=
  ⟨frame_after _ (by decide), by decide⟩
theorem meets_FrameRedrawsDirtyCells : exec .frame pfA = .next (after .frame pfA) ∧ pfA.cellIsDirty .front 1023 = true ∧
    clean.cellIsDirty .back 1023 = false := ⟨frame_after _ (by decide), by decide⟩
theorem meets_FramePictureIsLastOpaqueLayer : exec .frame pfA = .next (after .frame pfA) ∧
    (after .frame pfA).cfg.visible = ⟨0, 255, 16, 239⟩ ∧ (after .frame pfA).picture 26 16 = 30 ∧ 63 < 64 :=
  ⟨frame_after _ (by decide), by decide⟩
theorem meets_FrameScratchCopy : exec .frame p3 = .next (after .frame p3) ∧
    (after .frame p3).pen .front = true ∧ Plane.front.layer ∈ (after .frame p3).drawRow.layers ∧
    (after .frame p3).slotOn 0 = true ∧ (after .frame p3).slotBx 0 = 52 ∧ (after .frame p3).slotBy 0 = 112 ∧
    (after .frame p3).pen .back = false := ⟨frame_after _ (by decide), by decide⟩
theorem meets_FrameSpriteCollisions : exec .frame p3 = .next (after .frame p3) ∧ Config.inHole 0x0F = false ∧
    Config.inHole 0x18 = false ∧ spriteBit (after .frame p3).coll 9 = true ∧ spriteBit (after .frame p3).coll 31 = false :=
  ⟨frame_after _ (by decide), by decide⟩
theorem meets_FramePlaneCollisions : exec .frame p3 = .next (after .frame p3) ∧
    planeBit (after .frame p3).coll .front = true ∧ planeBit (after .frame p3).coll .back = false :=
  ⟨frame_after _ (by decide), by decide⟩
theorem meets_SpriteCollisionIsSymmetric : exec .frame p3 = .next (after .frame p3) ∧
    ¬((after .frame p3).cfg.collNeedsSpritesOn = true ∧ (after .frame p3).sen = false) ∧
    (after .frame p3).slotOn 0 = true ∧ (after .frame p3).slotOn 9 = true ∧ (after .frame p3).coOpaque 0 9 :=
  ⟨frame_after _ (by decide), by decide, by decide, by decide, 0, 8, 0, 8, by decide⟩
theorem meets_FrameTwiceIsFrameOnce : exec .frame p3 = .next (after .frame p3) := frame_after _ (by decide)
theorem meets_HoleIsNeverSeen : exec .frame State.reset = .next (after .frame State.reset) ∧
    ∀ a, ¬(0x40 ≤ a ∧ a ≤ 0x5F) → Memory.read [(0x40, 0x55), (0x5F, 0xAA)] a = State.reset.spram.read a := by
  refine ⟨frame_after _ (by decide), fun a h => ?_⟩
  have h1 : 0x40 ≠ a := by omega
  have h2 : 0x5F ≠ a := by omega
  simp only [Memory.read, if_neg h1, if_neg h2]
  rfl
theorem meets_ObjexIgnored : exec .frame pfA = .next (after .frame pfA) ∧ pfA.cfg.objexMode = .ignored :=
  ⟨frame_after _ (by decide), by decide⟩
theorem meets_PaletteReachesOnlyColours : exec .frame pfA = .next (after .frame pfA) := frame_after _ (by decide)
theorem meets_PaletteBoundaryColours : 63 < 64 ∧ State.reset.palram.wf ∧ State.reset.cfg.palWeight.w0 +
    State.reset.cfg.palWeight.w1 + State.reset.cfg.palWeight.w2 = 255 := by decide
theorem meets_ScrollRanges : pfA.cfg.scrollF1 = ⟨3, 1, -1⟩ ∧ pfA.cfg.scrollF2 = ⟨8, 10, 12⟩ ∧ 0 < 32 ∧ 31 < 32 ∧
    pfA.viden.getLsbD 1 = false ∧ ({ pfA with viden := 0x13 } : State).viden.getLsbD 1 = true := by decide
theorem meets_SpriteScanPositions : p3.cfg.sprSx = Tab.tabulate 8 Config.standardSx ∧
    p3.cfg.sprSy = Tab.tabulate 8 Config.standardSy ∧ p3.cfg.activeTest = Tab.tabulate 8 Config.standardActive ∧
    p3.cfg.sprMirrorX = 238 ∧ p3.cfg.sprMirrorY = 242 ∧ p3.slotOn 0 = true ∧ p3.slotOn 31 = false :=
  ⟨rfl, rfl, rfl, by decide⟩
theorem meets_EveryAdmittedTransactionCompletes : (variant .mcu).admits (.mwPortb 0) = true ∧
    (variant .alpine).admits .crAlpinein = true ∧ (variant .noProt).admits .frame = true ∧
    (variant .noProt).admits .mrPortc = false := by decide
theorem meets_CollisionBitsAccumulate : exec (.cwBanksw 1) { clean with coll := #v[0, 0, 0, 1] } =
      .next (after (.cwBanksw 1) { clean with coll := #v[0, 0, 0, 1] }) ∧
    (regGet (after (.cwBanksw 1) { clean with coll := #v[0, 0, 0, 1] }).coll 3).getLsbD 0 = true ∧
    Instr.cwBanksw 1 ≠ .frame ∧ (∀ v, Instr.cwBanksw 1 ≠ .cwCollclr v) ∧ Instr.cwBanksw 1 ≠ .reset :=
  ⟨rfl, by decide, by decide, fun _ h => (nomatch h), by decide⟩
theorem meets_DirtyBitsOnlyGrow : exec (.cwCram 0 0) pfA = .next (after (.cwCram 0 0) pfA) ∧
    pfA.tileIsDirty .bank1 255 = true ∧ pfA.spatIsDirty .bank0 0 = true ∧ pfA.cellIsDirty .back 1023 = true :=
  ⟨rfl, by decide⟩
theorem meets_BitmapsChangeOnlyInFrame : exec (.cwViden 1) pfA = .next (after (.cwViden 1) pfA) ∧
    Instr.cwViden 1 ≠ .frame ∧ Instr.cwViden 1 ≠ .reset := ⟨rfl, by decide⟩
theorem meets_McuEventsLeaveVideoAlone : exec (.mwPortb 0) clean = .next (after (.mwPortb 0) clean) ∧
    (Instr.mwPortb 0).agent = .mcu := ⟨rfl, by decide⟩
/-- The state after a step, or the state itself where the step is refused. -/
def stepped (s : State) : State :=
  match step s with
  | .next t => t
  | .fault _ => s
  | .refused _ => s

/-- PF-A with a FRAME as the next word of the trace, under `TILE_PROPAGATE`. -/
def aboutToRender : State :=
  { pfA with
    cfg := { cfgF with tilePropagate := true }
    trace := [0x50000000] }

theorem meets_ConfigurationNeverChanges : step (given 0x60000000) = .next (stepped (given 0x60000000)) := rfl
theorem meets_StepKeepsInv : aboutToRender.Inv ∧ step aboutToRender = .next (stepped aboutToRender) := by
  refine ⟨⟨⟨by decide, fun n => ?_, by decide, by decide, by decide⟩, ?_, ?_, rfl,
    by decide⟩, rfl⟩
  · cases n <;> decide
  · intro b t r x _ _ _ h
    cases b <;> simp [State.tileIsDirty, aboutToRender, pfA, State.init, PerBank.get] at h
  · intro b t r x _ _ _ h
    cases b <;> simp [State.spatIsDirty, aboutToRender, pfA, State.init, PerBank.get] at h
theorem meets_StepKeepsPlanesCurrent : aboutToRender.cfg.tilePropagate = true ∧ aboutToRender.PlanesCurrent ∧
    step aboutToRender = .next (stepped aboutToRender) := by
  refine ⟨rfl, fun n c _ h => ?_, rfl⟩
  cases n <;> simp [State.cellIsDirty, aboutToRender, pfA, State.init, PerPlane.get] at h
theorem meets_FrameMakesPlanesCurrent : exec .frame aboutToRender = .next (after .frame aboutToRender) ∧
    (aboutToRender.cfg.tilePropagate = true ∧ aboutToRender.PlanesCurrent) ∧
    exec .frame pfA = .next (after .frame pfA) ∧ ∀ n c, c < 1024 → pfA.cellIsDirty n c = true := by
  refine ⟨frame_after _ (by decide), ⟨rfl, meets_StepKeepsPlanesCurrent.2.1⟩, frame_after _ (by decide), ?_⟩
  intro n c _
  cases n <;> simp [State.cellIsDirty, pfA, State.init, PerPlane.get]

end Sys2Proof.Tests
end

section
/-! SUPPORT. What one step runs: the fetch by its cases, and the answer of every transaction as the configuration admits
it (spec/00_scope.md R9, R10; spec/60_exceptions.md R340, R342). -/

namespace Sys2Proof.Machine

/-! ### The fetch -/

theorem step_of_trace_nil {s : State} (ht : s.trace = []) : step s = .refused .noEvent := by
  simp [step, fetch, ht]

theorem step_of_decode_error {s : State} {w : TraceWord} {rest : List TraceWord} {e : DecodeError}
    (ht : s.trace = w :: rest) (hd : decode s.cfg.addrMap w = .error e) : step s = .refused (.notDecoded e) := by
  simp [step, fetch, ht, hd]

theorem step_of_decode_ok {s : State} {w : TraceWord} {rest : List TraceWord} {i : Instr}
    (ht : s.trace = w :: rest) (hd : decode s.cfg.addrMap w = .ok i) : step s = exec i (s.issued i rest) := by
  simp [step, fetch, ht, hd]

/-- Every agent but the host is a processor (R10). -/
theorem processorOf_of_ne_host {a : Agent} (h : a ≠ .host) : processorOf a = some a := by
  cases a with
  | cpu => rfl
  | mcu => rfl
  | host => exact absurd rfl h

theorem noteAgent_host (s : State) : s.noteAgent .host = s := rfl

theorem noteAgent_of_ne_host (s : State) {a : Agent} (h : a ≠ .host) :
    s.noteAgent a =
      { s with lastProc := some a, marked := s.marked || (s.lastProc.isSome && s.lastProc != some a) } := by
  simp only [State.noteAgent, processorOf_of_ne_host h]

/-- The state a transaction runs in: the trace has lost its word, and the processor of a processor's event is noted
(R10, R83 (a)). -/
theorem issued_eq (s : State) (i : Instr) (rest : List TraceWord) :
    s.issued i rest =
      if i.agent = .host then { s with trace := rest }
      else { s with
        trace := rest
        lastProc := some i.agent
        marked := s.marked || (s.lastProc.isSome && s.lastProc != some i.agent) } := by
  split
  next hhost => rw [State.issued, hhost, noteAgent_host]
  next hproc => rw [State.issued, noteAgent_of_ne_host _ hproc]

/-! ### What the configuration admits -/

/-- An outcome is the one admission calls for: the next state if admitted, a refusal if not, and never a fault. -/
def AnswersTo (o : Host.Outcome State Fault Refusal) (admitted : Bool) : Prop :=
  (admitted = true → ∃ t, o = .next t) ∧ (admitted = false → ∃ r, o = .refused r)

theorem answersTo_next (t : State) : AnswersTo (.next t) true :=
  ⟨fun _ => ⟨t, rfl⟩, Bool.noConfusion⟩

theorem answersTo_refused (r : Refusal) : AnswersTo (.refused r) false :=
  ⟨Bool.noConfusion, fun _ => ⟨r, rfl⟩⟩

/-- A transaction of one protection variant completes exactly in that variant (R290). -/
theorem answersTo_inVariant (s : State) (v : ProtVariant) (t : State) :
    AnswersTo (inVariant s v t) (s.cfg.protVariant == v) := by
  by_cases hv : s.cfg.protVariant = v
  · rw [inVariant, if_pos hv, beq_iff_eq.2 hv]
    exact answersTo_next t
  · rw [inVariant, if_neg hv, beq_eq_false_iff_ne.2 hv]
    exact answersTo_refused _

/-- FRAME completes unless `OBJEX` is set under `OBJEX_MODE = refuse` (R240, R388). -/
theorem answersTo_execFrame (s : State) : AnswersTo (execFrame s) s.frameAllowed := by
  by_cases hx : s.cfg.objexMode = .refuse ∧ s.objex
  · have hdenied : s.frameAllowed = false := by simpa [State.frameAllowed] using hx
    rw [execFrame, if_pos hx, hdenied]
    exact answersTo_refused _
  · have hallowed : s.frameAllowed = true := by simpa [State.frameAllowed, imp_iff_not_or] using hx
    rw [execFrame, if_neg hx, hallowed]
    exact answersTo_next _

/-- Every transaction answers as the configuration admits it (R340, R342): only the variants' own transactions and FRAME
can be refused. -/
theorem exec_answersTo_admits (i : Instr) (s : State) : AnswersTo (exec i s) (s.admits i) := by
  cases i with
  | mrPorta | mwPorta | mwPortb | mrPortb | mrPortc | cwAlpinecode | crAlpinein => exact answersTo_inVariant s _ _
  | frame => exact answersTo_execFrame s
  | _ => exact answersTo_next _

end Sys2Proof.Machine
end

section
/-! SUPPORT. The register fields as arithmetic on the bytes (spec/00_scope.md R12; spec/10_state.md R29, R33;
spec/43_sprites.md R212, R213). -/

namespace Sys2Proof.Machine

/-! ### Fields of a byte -/

theorem toNat_byteField (b : Byte) (lo width : Nat) :
    (b.extractLsb' lo width).toNat = b.toNat / 2 ^ lo % 2 ^ width := by
  rw [BitVec.extractLsb'_toNat, Nat.shiftRight_eq_div_pow]

theorem toNat_byteLow (b : Byte) (width : Nat) : (b.extractLsb' 0 width).toNat = b.toNat % 2 ^ width := by
  rw [toNat_byteField, Nat.pow_zero, Nat.div_one]

theorem toNat_byteBit (b : Byte) (k : Nat) : (BitVec.ofBool (b.getLsbD k)).toNat = b.toNat / 2 ^ k % 2 := by
  rw [BitVec.toNat_ofBool, BitVec.getLsbD, Nat.toNat_testBit]

theorem toNat_append_eq_add {m n : Nat} (x : BitVec m) (y : BitVec n) :
    (x ++ y).toNat = 2 ^ n * x.toNat + y.toNat := by
  rw [BitVec.toNat_append, ← Nat.shiftLeft_add_eq_or_of_lt y.isLt, Nat.shiftLeft_eq, Nat.mul_comm]

/-! ### Colours, banks and patterns -/

theorem Bank.ofBit_eq_ite (b : Bool) : Bank.ofBit b = if b then .bank1 else .bank0 := by
  cases b <;> rfl

/-- A palette index is `8 * colour + pen` (R12). -/
theorem palIdx_toNat (k : Colour) (p : Pen) : (palIdx k p).toNat = 8 * k.toNat + p.toNat :=
  toNat_append_eq_add k p

theorem pcol_front_toNat (s : State) : (s.pcol .front).toNat = (regGet s.colorbank 0).toNat % 8 :=
  toNat_byteLow _ 3

theorem pcol_middle_toNat (s : State) : (s.pcol .middle).toNat = (regGet s.colorbank 0).toNat / 16 % 8 :=
  toNat_byteField _ 4 3

theorem pcol_back_toNat (s : State) : (s.pcol .back).toNat = (regGet s.colorbank 1).toNat % 8 :=
  toNat_byteLow _ 3

/-- A sprite's colour code is `2 * SCOLB + SCB` (R213). -/
theorem spriteColour_toNat (s : State) (i : Nat) :
    (s.spriteColour i).toNat =
      2 * ((regGet s.colorbank 1).toNat / 16 % 4) + (s.spram.read (4 * i + 2)).toNat / 4 % 2 := by
  have hbank : s.scolb.toNat = (regGet s.colorbank 1).toNat / 16 % 4 := toNat_byteField _ 4 2
  have hbit : (BitVec.ofBool (s.scb i)).toNat = (s.spram.read (4 * i + 2)).toNat / 4 % 2 := toNat_byteBit _ 2
  rw [State.spriteColour, toNat_append_eq_add, hbank, hbit]
  rfl

/-- The pen of a slot's pattern is an entry of the pattern cache, mirrored by the flips (R212, R33). -/
theorem spritePen_sprite (s : State) (i : Nat) (fx fy : Bool) (j k : Nat) :
    s.spritePen (s.sprite i) fx fy j k =
      s.spatPen (s.sbank i) (s.scode i) (if fy then 15 - j else j) (if fx then 15 - k else k) := rfl

end Sys2Proof.Machine
end

section
/-! CERTIFICATE. The statements of spec/00_scope.md, settled. -/

namespace Sys2Proof.Proofs.Scope

open Sys2Proof.Machine

/-- Settles O6: the fetch hands the decoded transaction the issued state. -/
theorem stepRunsDecoded : Obligations.StepRunsDecoded := by
  intro s w rest i ht hd
  rw [step_of_decode_ok ht hd, issued_eq]

/-- Settles O7. -/
theorem stepRefusesNoTransaction : Obligations.StepRefusesNoTransaction :=
  fun _ => ⟨step_of_trace_nil, fun _ _ _ => step_of_decode_error⟩

/-- Settles O49, by the cases of the transaction. -/
theorem everyAdmittedTransactionCompletes : Obligations.EveryAdmittedTransactionCompletes :=
  exec_answersTo_admits

/-- Settles O60, each field by its own lemma; the flips and the bits of `VIDEN` are the bits themselves. -/
theorem spriteAndColourFields : Obligations.SpriteAndColourFields := by
  intro s i flags code c0 c1 bank
  have hpattern : ∀ fx fy j k, s.spritePen (s.sprite i) fx fy j k =
      s.spatPen (bank (code.getLsbD 6)) (code.toNat % 64) (if fy then 15 - j else j) (if fx then 15 - k else k) := by
    intro fx fy j k
    rw [spritePen_sprite, State.sbank, Bank.ofBit_eq_ite]
    rfl
  exact ⟨rfl, rfl, spriteColour_toNat s i, hpattern,
    pcol_front_toNat s, pcol_middle_toNat s, pcol_back_toNat s,
    Bank.ofBit_eq_ite _, Bank.ofBit_eq_ite _, Bank.ofBit_eq_ite _,
    rfl, rfl, rfl, rfl, rfl, rfl, rfl, palIdx_toNat⟩

end Sys2Proof.Proofs.Scope
end

section
/-! SUPPORT. What one step can do to the block's storage: the memories, the caches, the bitmaps, the draw order and the
collision registers, with the configuration (spec/10_state.md). -/

namespace Sys2Proof.Machine

/-! ### The step by its decoded transaction -/

/-- A step that completes ran the decoded transaction in the issued state (R10, R108). -/
theorem step_eq_next {s t : State} (h : step s = .next t) :
    ∃ w rest i, s.trace = w :: rest ∧ decode s.cfg.addrMap w = .ok i ∧ exec i (s.issued i rest) = .next t := by
  cases ht : s.trace with
  | nil => rw [step_of_trace_nil ht] at h; cases h
  | cons w rest =>
    cases hd : decode s.cfg.addrMap w with
    | error e => rw [step_of_decode_error ht hd] at h; cases h
    | ok i => exact ⟨w, rest, i, rfl, hd, step_of_decode_ok ht hd ▸ h⟩

/-- The write a port decodes to is well formed (R71, R104). -/
theorem wellFormed_of_writeOf {p : Port} {off : Nat} {v : Byte} {i : Instr} (h : writeOf p off v = some i)
    (hoff : off < p.size) : WellFormed i = true := by
  cases p with
  | cram | vram0 | vram1 | vram2 | colscroll | spram | palram | scroll | colorbank | gfxptr =>
    cases h; exact decide_eq_true hoff
  | mcudata | priority | collclr | banksw | alpinecode | viden | porta | portb => cases h; rfl
  | mcustatus | coll | gfxrom | alpinein | portc => cases h

/-- The read a port decodes to is well formed (R71, R104). -/
theorem wellFormed_of_readOf {p : Port} {off : Nat} {i : Instr} (h : readOf p off = some i)
    (hoff : off < p.size) : WellFormed i = true := by
  cases p with
  | vram0 | vram1 | vram2 | colscroll | spram | coll => cases h; exact decide_eq_true hoff
  | mcudata | mcustatus | gfxrom | alpinein | porta | portb | portc => cases h; rfl
  | cram | palram | priority | scroll | colorbank | collclr | gfxptr | banksw | alpinecode | viden => cases h

theorem wellFormed_of_decodeAccess {m : AddrMap} {sp : Space} {d : Dir} {a : Nat} {v : Byte} {i : Instr}
    (h : decodeAccess m sp d a v = .ok i) : WellFormed i = true := by
  unfold decodeAccess at h
  split at h
  next => cases h
  next p off hsel =>
    obtain ⟨_, _, _, _, _, _, hoff⟩ := select_eq_some hsel
    split at h
    next j hj =>
      cases h
      cases d with
      | write => exact wellFormed_of_writeOf hj hoff
      | read => exact wellFormed_of_readOf hj hoff
    next => cases h

theorem decodeHost_eq_ok {w : TraceWord} {e i : Instr} (h : decodeHost w e = .ok i) : i = e := by
  unfold decodeHost at h
  split at h
  next => cases h; rfl
  next => cases h

/-- Every decoded transaction lies inside its port (R71, R104). -/
theorem wellFormed_of_decode {m : AddrMap} {w : TraceWord} {i : Instr} (h : decode m w = .ok i) :
    WellFormed i = true := by
  unfold decode at h
  split at h
  next => cases h
  next =>
    split at h
    case h_8 => cases h
    case h_5 | h_6 | h_7 => rw [decodeHost_eq_ok h]; rfl
    all_goals exact wellFormed_of_decodeAccess h

/-! ### The effect of a transaction on the storage -/

/-- `t` with the storage of `s` in place of its own. -/
def State.withStorageOf (t s : State) : State :=
  { t with
    cfg := s.cfg
    cram := s.cram
    tileDirty := s.tileDirty
    spatDirty := s.spatDirty
    tilePix := s.tilePix
    spatPix := s.spatPix
    vram := s.vram
    pf := s.pf
    pscr := s.pscr
    colscroll := s.colscroll
    palram := s.palram
    draworder := s.draworder
    spram := s.spram
    coll := s.coll }

/-- What a transaction can do to the storage: a write of a memory, the clear-write, FRAME and RESET change it, each in its
own way; whatever else a transaction does leaves it alone. -/
inductive Effect (s : State) : Instr → State → Prop where
  | cram (off : Nat) (v : Byte) :
    Effect s (.cwCram off v) ({ s.markChar off with cram := s.cram.write off v } : State).quiet
  | vram (n : Plane) (off : Nat) (v : Byte) :
    Effect s (vramWrite n off v)
      ({ s.markCell n off with vram := s.vram.set n ((s.vram.get n).write off v) } : State).quiet
  | colscroll (off : Nat) (v : Byte) :
    Effect s (.cwColscroll off v) { s.quiet with colscroll := s.colscroll.write off v }
  | spram (off : Nat) (v : Byte) : Effect s (.cwSpram off v) { s.quiet with spram := s.spram.write off v }
  | palram (off : Nat) (v : Byte) : Effect s (.cwPalram off v) { s.quiet with palram := s.palram.write off v }
  | collclr (v : Byte) : Effect s (.cwCollclr v) { s.quiet with coll := Vector.replicate 4 0 }
  | frame : Effect s .frame s.rendered
  | reset : Effect s .reset s.recreate
  | other (i : Instr) (t : State) : Effect s i (t.withStorageOf s)

/-- A state that has kept the storage of `s` is one any transaction can leave. -/
theorem Effect.of_kept {s t : State} (i : Instr) (h : t.withStorageOf s = t) : Effect s i t := h ▸ .other i t

theorem storeCram_effect (s : State) (off : Nat) (v : Byte) :
    Effect s (.cwCram off v) (s.storeCram off v).quiet := by
  rcases storeCram_spec s off v with ⟨h, -⟩ | ⟨h, -⟩
  · rw [h]; exact .of_kept _ rfl
  · rw [h]; exact .cram off v

theorem storeVram_effect (s : State) (n : Plane) (off : Nat) (v : Byte) :
    Effect s (vramWrite n off v) (s.storeVram n off v).quiet := by
  rcases storeVram_spec s n off v with ⟨h, -⟩ | ⟨h, -⟩
  · rw [h]; exact .of_kept _ rfl
  · rw [h]; exact .vram n off v

theorem drain_keeps_storage (s : State) : s.drain.withStorageOf s = s.drain := by
  rw [drain_frame]; rfl

theorem portBits_keep_storage (v : Byte) (ks : List Nat) (s : State) :
    (ks.foldl (portBit v) s).withStorageOf s = ks.foldl (portBit v) s := by
  rw [portBits_frame]; rfl

theorem portDrawn_keeps_storage (s : State) : s.portDrawn.withStorageOf s = s.portDrawn := by
  unfold State.portDrawn; split <;> rfl

theorem issued_keeps_storage (s : State) (i : Instr) (rest : List TraceWord) :
    (s.issued i rest).withStorageOf s = s.issued i rest := by
  rw [issued_eq]; split <;> rfl

/-- An update chosen by a condition keeps the storage if both updates do. -/
theorem ite_keeps_storage {c : Prop} [Decidable c] {s a b : State} (ha : a.withStorageOf s = a)
    (hb : b.withStorageOf s = b) : (if c then a else b).withStorageOf s = if c then a else b := by
  split
  · exact ha
  · exact hb

/-- Outputs are no storage. -/
theorem withOut_keeps_storage {s t : State} (o : Outputs) (h : t.withStorageOf s = t) :
    (t.withOut o).withStorageOf s = t.withOut o := congrArg (·.withOut o) h

theorem Effect.of_next {s t u : State} (i : Instr) (h : (.next u : Host.Outcome State Fault Refusal) = .next t)
    (hu : u.withStorageOf s = u) : Effect s i t := Host.Outcome.next.inj h ▸ .of_kept i hu

theorem Effect.of_inVariant {s t u : State} {v : ProtVariant} (i : Instr) (h : inVariant s v u = .next t)
    (hu : u.withStorageOf s = u) : Effect s i t := (inVariant_eq_next.1 h).2 ▸ .of_kept i hu

/-- FRAME answers the rendered state unless `OBJEX` refuses it (R240, R388). -/
theorem exec_frame_eq_next {s t : State} :
    exec .frame s = .next t ↔ ¬(s.cfg.objexMode = .refuse ∧ s.objex) ∧ t = s.rendered := by
  change execFrame s = .next t ↔ _
  unfold execFrame
  split
  next hx => exact ⟨nofun, fun h => absurd hx h.1⟩
  next hx => exact ⟨fun h => ⟨hx, (Host.Outcome.next.inj h).symm⟩, fun h => congrArg _ h.2.symm⟩

/-- Every transaction that completes has one of the effects. -/
theorem effect_of_exec {i : Instr} {s t : State} (h : exec i s = .next t) : Effect s i t := by
  cases i with
  | cwCram off v => exact Host.Outcome.next.inj h ▸ storeCram_effect s off v
  | cwVram0 off v => exact Host.Outcome.next.inj h ▸ storeVram_effect s .front off v
  | cwVram1 off v => exact Host.Outcome.next.inj h ▸ storeVram_effect s .middle off v
  | cwVram2 off v => exact Host.Outcome.next.inj h ▸ storeVram_effect s .back off v
  | cwColscroll off v => exact Host.Outcome.next.inj h ▸ .colscroll off v
  | cwSpram off v => exact Host.Outcome.next.inj h ▸ .spram off v
  | cwPalram off v => exact Host.Outcome.next.inj h ▸ .palram off v
  | cwCollclr v => exact Host.Outcome.next.inj h ▸ .collclr v
  | frame => exact (exec_frame_eq_next.1 h).2 ▸ .frame
  | reset => exact Host.Outcome.next.inj h ▸ .reset
  | sync => exact .of_next _ h (withOut_keeps_storage _ (drain_keeps_storage s))
  | cwColorbank | cwViden | cwMcudata | crMcudata => exact .of_next _ h (ite_keeps_storage rfl rfl)
  | crMcustatus =>
    exact .of_next _ h (ite_keeps_storage
      (withOut_keeps_storage _ (ite_keeps_storage (drain_keeps_storage s) rfl)) rfl)
  | mwPortb v => exact .of_inVariant _ h (portBits_keep_storage v portBits s.quiet)
  | crAlpinein => exact .of_inVariant _ h (withOut_keeps_storage _ (portDrawn_keeps_storage s))
  | mrPorta | mwPorta | mrPortb | mrPortc | cwAlpinecode => exact .of_inVariant _ h rfl
  | crVram0 | crVram1 | crVram2 | crColscroll | crSpram | crColl | crGfxrom | cwPriority | cwScroll | cwGfxptr
  | cwBanksw => exact .of_next _ h rfl

/-- A step that completes has the effect of a well-formed transaction, in a state with the same storage. -/
theorem effect_of_step {s t : State} (h : step s = .next t) :
    ∃ i u, WellFormed i = true ∧ u.withStorageOf s = u ∧ Effect u i t := by
  obtain ⟨w, rest, i, -, hd, he⟩ := step_eq_next h
  exact ⟨i, s.issued i rest, wellFormed_of_decode hd, issued_keeps_storage s i rest, effect_of_exec he⟩

/-- No transaction changes the configuration (R44). -/
theorem Effect.cfg_eq {s t : State} {i : Instr} (h : Effect s i t) : t.cfg = s.cfg := by
  cases h <;> rfl

end Sys2Proof.Machine
end

section
/-! SUPPORT. The collision bits after FRAME (spec/45_collision.md R260 to R265; spec/10_state.md R34). -/

namespace Sys2Proof.Machine

/-- A collision bit after step 5 of FRAME (R260, R261). -/
theorem getLsbD_collideSprites (s : State) (scan : List Sprite) (c : Vector Byte 4) (r k : Nat) :
    (regGet (s.collideSprites scan c) r).getLsbD k = true ↔
      (regGet c r).getLsbD k = true ∨ s.collisionsOn = true ∧ ∃ pq ∈ pairsOf scan, s.spritesHit pq.1 pq.2 = true ∧
        (r = min (pq.1.slot / 8) 2 ∧ k = pq.1.slot % 8 ∨ r = min (pq.2.slot / 8) 2 ∧ k = pq.2.slot % 8) := by
  unfold State.collideSprites
  split
  next hon => rw [getLsbD_foldl_hitPair, hon, eq_self, true_and]
  next hoff => exact ⟨.inl, fun h => h.elim id fun h => absurd h.1 hoff⟩

/-- A collision bit after step 6 of FRAME (R260, R264, R265). -/
theorem getLsbD_collidePlanes (s : State) (scan : List Sprite) (pscr : PerPlane (Tab PalIdx 16)) (c : Vector Byte 4)
    (r k : Nat) :
    (regGet (s.collidePlanes scan pscr c) r).getLsbD k = true ↔
      (regGet c r).getLsbD k = true ∨ s.collisionsOn = true ∧ r = 3 ∧
        ∃ pn ∈ scan.flatMap fun p => Plane.all.map fun n => (p, n),
          s.pen pn.2 = true ∧ s.planeHit pscr pn.1 pn.2 = true ∧ k = pn.2.number := by
  unfold State.collidePlanes
  split
  next hon => rw [getLsbD_foldl_hitPlane, hon, eq_self, true_and]
  next hoff => exact ⟨.inl, fun h => h.elim id fun h => absurd h.1 hoff⟩

/-- FRAME clears no collision bit (R268 (3)). -/
theorem rendered_coll_mono {s : State} {r k : Nat} (h : (regGet s.coll r).getLsbD k = true) :
    (regGet s.rendered.coll r).getLsbD k = true :=
  (getLsbD_collidePlanes _ _ _ _ _ _).2 (.inl ((getLsbD_collideSprites _ _ _ _ _).2 (.inl h)))

/-- FRAME sets in collision register 3 bits of planes alone (R268 (1)). -/
theorem rendered_coll3_new {s : State} {k : Nat} (h : (regGet s.rendered.coll 3).getLsbD k = true) :
    (regGet s.coll 3).getLsbD k = true ∨ k < 3 := by
  rcases (getLsbD_collidePlanes _ _ _ _ _ _).1 h with h | ⟨-, -, pn, -, -, -, rfl⟩
  · rcases (getLsbD_collideSprites _ _ _ _ _).1 h with h | ⟨-, pq, -, -, hslot⟩
    · exact .inl h
    · omega
  · right
    cases pn.2 <;> decide

/-- `d & 0xF8 = 0` says that the bits above bit 2 are clear. -/
theorem and_0xF8_eq_zero_iff (d : Byte) : d &&& 0xF8 = 0 ↔ ∀ k, 3 ≤ k → d.getLsbD k = false := by
  constructor
  · intro h k hk
    by_cases h8 : k < 8
    · have hbit := congrArg (·.getLsbD k) h
      have hmask : (0xF8#8).getLsbD k = true := by interval_cases k <;> rfl
      simpa [hmask] using hbit
    · exact BitVec.getLsbD_of_ge d k (by omega)
  · intro h
    refine BitVec.eq_of_getLsbD_eq fun k hk => ?_
    by_cases h3 : 3 ≤ k
    · simp [h k h3]
    · have hmask : (0xF8#8).getLsbD k = false := by interval_cases k <;> rfl
      simp [hmask]

/-- FRAME keeps `COLL[3] & 0xF8 = 0` (R268 (1)). -/
theorem rendered_coll3_masked {s : State} (h : regGet s.coll 3 &&& 0xF8 = 0) :
    regGet s.rendered.coll 3 &&& 0xF8 = 0 := by
  rw [and_0xF8_eq_zero_iff] at h ⊢
  intro k hk
  by_contra hbit
  rcases rendered_coll3_new (Bool.eq_true_of_not_eq_false hbit) with hold | hlow
  · exact Bool.false_ne_true ((h k hk).symm.trans hold)
  · omega

/-- Cleared collision registers have `COLL[3] & 0xF8 = 0` (R146, R268 (1)). -/
theorem coll3_cleared_masked : regGet (Vector.replicate 4 (0 : Byte)) 3 &&& 0xF8 = 0 := by
  rw [regGet_replicate]; rfl

end Sys2Proof.Machine
end

section
/-! SUPPORT. The block's invariant, kept by every effect (spec/10_state.md R20 to R34; spec/41_tilecache.md R174). -/

namespace Sys2Proof.Machine

/-! ### Memories -/

/-- A write inside a canonical RAM leaves a canonical RAM. -/
theorem Memory.write_wf_within {m : Memory} {size off : Nat} (h : m.wf ∧ m.within size) (hoff : off < size)
    (v : Byte) : (m.write off v).wf ∧ (m.write off v).within size :=
  ⟨Memory.write_wf h.1 off v, Memory.write_within h.2 hoff v⟩

theorem Memory.nil_wf_within (size : Nat) : Memory.wf [] ∧ Memory.within [] size :=
  ⟨Memory.nil_wf, by simp⟩

/-- A write to video RAM is well formed when its offset lies inside the plane (R104). -/
theorem wellFormed_vramWrite {n : Plane} {off : Nat} {v : Byte} (h : WellFormed (vramWrite n off v) = true) :
    off < 0x400 := by
  cases n <;> exact of_decide_eq_true h

/-! ### Who owns a character-RAM byte -/

/-- The three bytes of a tile's row belong to the tile (R72, R171). -/
theorem owner_of_tileRow (b : Bank) {t r : Nat} (ht : t < 256) (hr : r < 8) (p : Fin 3) :
    bankOf (Config.cramBankSize * b.number + 8 * t + r + Config.planeStride * p.val) = b ∧
      tileOf (Config.cramBankSize * b.number + 8 * t + r + Config.planeStride * p.val) = t := by
  have hp := p.isLt
  simp only [bankOf, tileOf, Config.cramBankSize, Config.planeStride]
  cases b
  · simp only [Bank.number]
    exact ⟨if_pos (by omega), by omega⟩
  · simp only [Bank.number]
    exact ⟨if_neg (by omega), by omega⟩

theorem spatByte_lt {r x : Nat} (hr : r < 16) (hx : x < 16) : spatByte r x < 32 := by
  unfold spatByte; omega

/-- The three bytes of half a pattern's row belong to the pattern (R72, R172). -/
theorem owner_of_spatRow (b : Bank) {q d : Nat} (hq : q < 64) (hd : d < 32) (p : Fin 3) :
    bankOf (Config.cramBankSize * b.number + 32 * q + d + Config.planeStride * p.val) = b ∧
      spatOf (Config.cramBankSize * b.number + 32 * q + d + Config.planeStride * p.val) = q := by
  have hp := p.isLt
  simp only [bankOf, spatOf, Config.cramBankSize, Config.planeStride]
  cases b
  · simp only [Bank.number]
    exact ⟨if_pos (by omega), by omega⟩
  · simp only [Bank.number]
    exact ⟨if_neg (by omega), by omega⟩

/-- A pen depends on the three bytes of its row alone (R171). -/
theorem unpackPen_write_ne (cfg : Config) (cram : Memory) {base off : Nat}
    (h : ∀ p : Fin 3, base + Config.planeStride * p.val ≠ off) (v : Byte) (x : Nat) :
    unpackPen cfg (cram.write off v) base x = unpackPen cfg cram base x := by
  simp only [unpackPen, Memory.read_write_ne cram (h _) v]

/-- A character-RAM write reaches no tile but its owner (R130, R171). -/
theorem unpackTile_write (cfg : Config) (cram : Memory) {b : Bank} {t r off : Nat} (ht : t < 256) (hr : r < 8)
    (h : ¬(b = bankOf off ∧ t = tileOf off)) (v : Byte) (x : Nat) :
    unpackTile cfg (cram.write off v) b t r x = unpackTile cfg cram b t r x := by
  refine unpackPen_write_ne cfg cram (fun p e => h ?_) v x
  obtain ⟨hb, ht⟩ := owner_of_tileRow b ht hr p
  rw [e] at hb ht
  exact ⟨hb.symm, ht.symm⟩

/-- A character-RAM write reaches no pattern but its owner (R130, R172). -/
theorem unpackSpat_write (cfg : Config) (cram : Memory) {b : Bank} {q r x off : Nat} (hq : q < 64) (hr : r < 16)
    (hx : x < 16) (h : ¬(b = bankOf off ∧ q = spatOf off)) (v : Byte) :
    unpackSpat cfg (cram.write off v) b q r x = unpackSpat cfg cram b q r x := by
  refine unpackPen_write_ne cfg cram (fun p e => h ?_) v _
  obtain ⟨hb, hq⟩ := owner_of_spatRow b hq (spatByte_lt hr hx) p
  rw [e] at hb hq
  exact ⟨hb.symm, hq.symm⟩

/-! ### The invariant, effect by effect -/

/-- The invariant speaks of the storage alone. -/
theorem State.Inv.of_kept {s t : State} (h : t.withStorageOf s = t) (hi : s.Inv) : t.Inv := by
  rw [← h]
  obtain ⟨hcram, hvram, hcolscroll, hpalram, hspram⟩ := hi.memories
  exact ⟨⟨hcram, hvram, hcolscroll, hpalram, hspram⟩, hi.tiles, hi.spats, hi.order, hi.coll⟩

/-- The state RESET creates meets the invariant under every configuration: all is dirty, so nothing need be valid
(R47, R370). -/
theorem inv_init (cfg : Config) : (State.init cfg).Inv where
  memories := {
    cram := Memory.nil_wf_within _
    vram := fun n => by cases n <;> exact Memory.nil_wf_within _
    colscroll := Memory.nil_wf_within _
    palram := Memory.nil_wf_within _
    spram := Memory.nil_wf_within _ }
  tiles := fun b t r x _ _ _ h => by cases b <;> simp [State.tileIsDirty, State.init, PerBank.get] at h
  spats := fun b p r x _ _ _ h => by cases b <;> simp [State.spatIsDirty, State.init, PerBank.get] at h
  order := rfl
  coll := coll3_cleared_masked

/-- A character-RAM write keeps every clean tile valid: its own tile is dirty after it (R130, R174). -/
theorem tilesValid_cramWrite {s : State} (hs : s.TilesValid) (off : Nat) (v : Byte) :
    State.TilesValid { s.markChar off with cram := s.cram.write off v } := by
  intro b t r x ht hr hx hclean
  change (s.markChar off).tileIsDirty b t = false at hclean
  rw [tileIsDirty_markChar s off b ht, Bool.or_eq_false_iff] at hclean
  obtain ⟨hold, hother⟩ := hclean
  exact (hs b t r x ht hr hx hold).trans
    (unpackTile_write s.cfg s.cram ht hr (by simpa using hother) v x).symm

/-- A character-RAM write keeps every clean pattern valid: its own pattern is dirty after it (R130, R174). -/
theorem spatsValid_cramWrite {s : State} (hs : s.SpatsValid) (off : Nat) (v : Byte) :
    State.SpatsValid { s.markChar off with cram := s.cram.write off v } := by
  intro b q r x hq hr hx hclean
  change (s.markChar off).spatIsDirty b q = false at hclean
  rw [spatIsDirty_markChar s off b hq, Bool.or_eq_false_iff] at hclean
  obtain ⟨hold, hother⟩ := hclean
  exact (hs b q r x hq hr hx hold).trans
    (unpackSpat_write s.cfg s.cram hq hr hx (by simpa using hother) v).symm

/-- FRAME leaves the tiles as its decode step does (R170, R240). -/
theorem rendered_tilePen (s : State) (b : Bank) (t r x : Nat) :
    s.rendered.tilePen b t r x = s.decodeDirty.tilePen b t r x := by
  have hpix : s.rendered.tilePix = .ofFn s.decodedTiles := rfl
  rw [State.tilePen, State.tilePen, hpix, State.decodeDirty_tilePix]

/-- FRAME leaves the patterns as its decode step does (R170, R240). -/
theorem rendered_spatPen (s : State) (b : Bank) (q r x : Nat) :
    s.rendered.spatPen b q r x = s.decodeDirty.spatPen b q r x := by
  have hpix : s.rendered.spatPix = .ofFn s.decodedSpats := rfl
  rw [State.spatPen, State.spatPen, hpix, State.decodeDirty_spatPix]

/-- FRAME makes every tile valid: a dirty one is unpacked, a clean one was valid (R170, R174). -/
theorem tilesValid_rendered {s : State} (hs : s.TilesValid) : s.rendered.TilesValid := by
  intro b t r x ht hr hx _
  rw [rendered_tilePen, tilePen_decodeDirty s b ht hr hx]
  split
  next => rfl
  next hclean => exact hs b t r x ht hr hx (Bool.eq_false_of_not_eq_true hclean)

/-- FRAME makes every pattern valid (R170, R174). -/
theorem spatsValid_rendered {s : State} (hs : s.SpatsValid) : s.rendered.SpatsValid := by
  intro b q r x hq hr hx _
  rw [rendered_spatPen, spatPen_decodeDirty s b hq hr hx]
  split
  next => rfl
  next hclean => exact hs b q r x hq hr hx (Bool.eq_false_of_not_eq_true hclean)

/-- Every effect of a well-formed transaction keeps the invariant. -/
theorem Effect.inv {s t : State} {i : Instr} (h : Effect s i t) (hw : WellFormed i = true) (hi : s.Inv) : t.Inv := by
  obtain ⟨hmem, htiles, hspats, horder, hcoll⟩ := hi
  obtain ⟨hcram, hvram, hcolscroll, hpalram, hspram⟩ := hmem
  cases h with
  | cram off v =>
    have hwrite := Memory.write_wf_within hcram (of_decide_eq_true hw) v
    exact ⟨⟨hwrite, hvram, hcolscroll, hpalram, hspram⟩, tilesValid_cramWrite htiles off v,
      spatsValid_cramWrite hspats off v, horder, hcoll⟩
  | vram n off v =>
    have hwrite := Memory.write_wf_within (hvram n) (wellFormed_vramWrite hw) v
    refine ⟨⟨hcram, fun m => ?_, hcolscroll, hpalram, hspram⟩, htiles, hspats, horder, hcoll⟩
    rw [State.quiet_vram, PerPlane.get_set]
    split
    · exact hwrite
    · exact hvram m
  | colscroll off v =>
    have hwrite := Memory.write_wf_within hcolscroll (of_decide_eq_true hw) v
    exact ⟨⟨hcram, hvram, hwrite, hpalram, hspram⟩, htiles, hspats, horder, hcoll⟩
  | spram off v =>
    have hwrite := Memory.write_wf_within hspram (of_decide_eq_true hw) v
    exact ⟨⟨hcram, hvram, hcolscroll, hpalram, hwrite⟩, htiles, hspats, horder, hcoll⟩
  | palram off v =>
    have hwrite := Memory.write_wf_within hpalram (of_decide_eq_true hw) v
    exact ⟨⟨hcram, hvram, hcolscroll, hwrite, hspram⟩, htiles, hspats, horder, hcoll⟩
  | collclr v => exact ⟨⟨hcram, hvram, hcolscroll, hpalram, hspram⟩, htiles, hspats, horder, coll3_cleared_masked⟩
  | frame =>
    exact ⟨⟨hcram, hvram, hcolscroll, hpalram, hspram⟩, tilesValid_rendered htiles, spatsValid_rendered hspats,
      horder, rendered_coll3_masked hcoll⟩
  | reset => exact (inv_init s.cfg).of_kept rfl
  | other _ u =>
    exact ⟨⟨hcram, hvram, hcolscroll, hpalram, hspram⟩, htiles, hspats, horder, hcoll⟩

end Sys2Proof.Machine
end

section
/-! SUPPORT. The sprite slots outside the hole and the FRAME that reads no other (spec/43_sprites.md R210, R214). -/

namespace Sys2Proof.Machine

/-- Steps 4 to 6 of FRAME on a prepared state, for a given sprite scan (R240). -/
def State.renderScan (p : State) (scan : List Sprite) : State :=
  let c := p.composite scan
  { p with
    pscr := c.pscr
    coll := p.collidePlanes scan c.pscr (p.collideSprites scan p.coll)
    out := { Outputs.none with frame := some { surface := c.surface, colours := Tab.tabulate 6 p.rgb } } }

theorem rendered_eq_renderScan (s : State) : s.rendered = s.prepared.renderScan s.prepared.spriteScan := rfl

/-- Steps 1 to 3 of FRAME read no sprite RAM. -/
theorem prepared_with_spram (s : State) (m : Memory) :
    ({ s with spram := m } : State).prepared = { s.prepared with spram := m } := rfl

/-- Steps 4 to 6 of FRAME read sprite RAM through the scan alone. -/
theorem renderScan_with_spram (p : State) (m : Memory) (scan : List Sprite) :
    ({ p with spram := m } : State).renderScan scan = { p.renderScan scan with spram := m } := rfl

/-- The four bytes of a slot outside the hole lie outside the hole's bytes 0x40..0x5F (R33, R214). -/
theorem spriteByte_with_spram {s : State} {m : Memory}
    (hm : ∀ a, ¬(0x40 ≤ a ∧ a ≤ 0x5F) → m.read a = s.spram.read a) {i : Nat} (hi : Config.inHole i = false) {k : Nat}
    (hk : k < 4) : ({ s with spram := m } : State).spriteByte i k = s.spriteByte i k := by
  refine hm _ ?_
  simp only [Config.inHole, Bool.and_eq_false_iff, decide_eq_false_iff_not] at hi
  omega

/-- The sprite scan sees no byte of the hole (R210, R214). -/
theorem spriteScan_with_spram {s : State} {m : Memory}
    (hm : ∀ a, ¬(0x40 ≤ a ∧ a ≤ 0x5F) → m.read a = s.spram.read a) :
    ({ s with spram := m } : State).spriteScan = s.spriteScan := by
  have hbyte : ∀ i k, Config.inHole i = false → k < 4 →
      ({ s with spram := m } : State).spriteByte i k = s.spriteByte i k := fun i k hi hk =>
    spriteByte_with_spram hm hi hk
  have hon : ({ s with spram := m } : State).slotOn = s.slotOn := by
    funext i
    cases hi : Config.inHole i with
    | true => simp only [State.slotOn, hi, Bool.not_true, Bool.false_and]
    | false => simp only [State.slotOn, State.yr, hbyte i 1 hi (by decide)]
  have hlive : ({ s with spram := m } : State).liveSlots = s.liveSlots := by
    rw [State.liveSlots, hon]; rfl
  rw [State.spriteScan, hlive]
  refine List.map_congr_left fun i hmem => ?_
  have hi := not_inHole_of_slotOn (List.mem_filter.1 hmem).2
  simp only [State.sprite, State.slotBx, State.slotBy, State.slotUx, State.slotUy, State.xr, State.yr, State.sfx,
    State.sfy, State.sbank, State.scode, State.spriteColour, State.scb, hbyte i 0 hi (by decide),
    hbyte i 1 hi (by decide), hbyte i 2 hi (by decide), hbyte i 3 hi (by decide)]
  rfl

/-- A FRAME does the same to all the rest whatever the hole holds (R214, R385). -/
theorem rendered_with_spram {s : State} {m : Memory}
    (hm : ∀ a, ¬(0x40 ≤ a ∧ a ≤ 0x5F) → m.read a = s.spram.read a) :
    ({ s with spram := m } : State).rendered = { s.rendered with spram := m } := by
  have hscan : ({ s.prepared with spram := m } : State).spriteScan = s.prepared.spriteScan :=
    spriteScan_with_spram hm
  rw [rendered_eq_renderScan, prepared_with_spram, hscan, renderScan_with_spram]
  rfl

end Sys2Proof.Machine
end

section
/-! CERTIFICATE. The statements of spec/10_state.md, settled. -/

namespace Sys2Proof.Proofs.BlockState

open Sys2Proof.Machine

/-- Settles O55: the fetch keeps the storage the invariant speaks of, and every effect of a decoded transaction keeps the
invariant. -/
theorem stepKeepsInv : Obligations.StepKeepsInv := by
  intro s t hs h
  obtain ⟨i, u, hw, hkept, he⟩ := effect_of_step h
  exact he.inv hw (hs.of_kept hkept)

/-- Settles O30: the reset answers `s.recreate`, whose block is `State.init s.cfg`. -/
theorem resetCreatesAllState : Obligations.ResetCreatesAllState := by
  intro s
  refine ⟨s.recreate, rfl, fun _ => ⟨rfl, rfl, rfl, rfl⟩, fun n _ => by cases n <;> rfl,
    fun i => ⟨regGet_replicate 6 i, regGet_replicate 2 i, regGet_replicate 2 i, regGet_replicate 4 i⟩, rfl, rfl, rfl,
    fun b r => ?_, fun n p => ?_, fun b i => ?_, fun n c => ?_, rfl, rfl, rfl, rfl, rfl, rfl, rfl, rfl, rfl, rfl, rfl,
    rfl, rfl, rfl, rfl, fun s' hcfg htrace hbus hport hdraws => ?_⟩
  · cases b <;> exact ⟨Tab.get_fill 0 14 r, Tab.get_fill 0 14 r⟩
  · cases n <;> exact ⟨Tab.get_fill 0 16 p, Tab.get_fill 0 16 p⟩
  · cases b <;> exact ⟨Tab.get_fill true 8 i, Tab.get_fill true 6 i⟩
  · cases n <;> exact Tab.get_fill true 10 c
  · change Host.Outcome.next s'.recreate = .next s.recreate
    rw [State.recreate, State.recreate, hcfg, htrace, hbus, hport, hdraws]

/-- Settles O43: the sprite scan reads no byte of the hole, and the rest of FRAME reads sprite RAM through the scan. -/
theorem holeIsNeverSeen : Obligations.HoleIsNeverSeen := by
  intro s m hm t h
  obtain ⟨hallowed, rfl⟩ := exec_frame_eq_next.1 h
  exact exec_frame_eq_next.2 ⟨hallowed, (rendered_with_spram hm).symm⟩

/-- Settles O50, by the effects: FRAME alone adds bits, and only the clear-write and RESET put zeros. -/
theorem collisionBitsAccumulate : Obligations.CollisionBitsAccumulate := by
  intro i s t h r k _
  have hzero : (regGet (Vector.replicate 4 (0 : Byte)) r).getLsbD k = true → (regGet s.coll r).getLsbD k = true := by
    rw [regGet_replicate]; simp
  cases effect_of_exec h with
  | frame => exact ⟨fun hne => absurd rfl hne, fun _ _ => rendered_coll_mono⟩
  | collclr v => exact ⟨fun _ => hzero, fun hne => absurd rfl (hne v)⟩
  | reset => exact ⟨fun _ => hzero, fun _ hne => absurd rfl hne⟩
  | cram | vram | colscroll | spram | palram | other => exact ⟨fun _ => id, fun _ _ => id⟩

/-- Settles O52, by the effects. -/
theorem bitmapsChangeOnlyInFrame : Obligations.BitmapsChangeOnlyInFrame := by
  intro i s t h hframe hreset
  cases effect_of_exec h with
  | frame => exact absurd rfl hframe
  | reset => exact absurd rfl hreset
  | cram | vram | colscroll | spram | palram | collclr | other => exact ⟨rfl, rfl, rfl, rfl, rfl⟩

/-- Settles O54: the fetch and every effect keep the configuration. -/
theorem configurationNeverChanges : Obligations.ConfigurationNeverChanges := by
  intro s t h
  obtain ⟨i, u, -, hkept, he⟩ := effect_of_step h
  calc t.cfg = u.cfg := he.cfg_eq
    _ = (u.withStorageOf s).cfg := by rw [hkept]
    _ = s.cfg := rfl

end Sys2Proof.Proofs.BlockState
end

section
/-! SUPPORT. The RAMs that read back, the drain of the deferred events, and what every transaction but FRAME does to the
dirty bits (spec/20_memory.md R74, R83, R86; spec/40_bus_registers.md R130 to R140, R156). -/

namespace Sys2Proof.Machine

/-! ### Read after write -/

theorem exec_vramWrite (n : Plane) (off : Nat) (v : Byte) (s : State) :
    exec (vramWrite n off v) s = .next (s.storeVram n off v).quiet := by
  cases n <;> rfl

theorem exec_vramRead (n : Plane) (off : Nat) (s : State) :
    exec (vramRead n off) s = .next (s.respond ((s.vram.get n).read off)) := by
  cases n <;> rfl

/-- A byte written to video RAM reads back, whether or not it changed the RAM (R131, R134). -/
theorem read_storeVram_same {s : State} {n : Plane} (h : (s.vram.get n).wf) (off : Nat) (v : Byte) :
    ((s.storeVram n off v).vram.get n).read off = v := by
  rcases storeVram_spec s n off v with ⟨hsame, hv⟩ | ⟨hstore, -⟩
  · rw [hsame, hv]
  · rw [hstore, PerPlane.get_set, if_pos rfl, Memory.read_write_same h]

/-! ### The drain -/

/-- A field that every deferred event changes by its own old value alone ends as the fold of those changes over the queue,
oldest first (R83). -/
theorem foldl_applyDeferred_field {α : Type} (field : State → α) (act : α → Deferred → α)
    (happly : ∀ u e, act (field u) e = field (applyDeferred u e)) (q : List Deferred) (s : State) :
    field (q.foldl applyDeferred s) = q.foldl act (field s) :=
  (List.foldl_hom field happly).symm

/-! ### Dirty bits -/

/-- Setting one bit in one bank's table clears no bit of either bank. -/
theorem PerBank.get_set_true {n : Nat} {p : PerBank (Tab Bool n)} {b b' : Bank} {i k : Nat}
    (h : (p.get b').get k = true) : ((p.set b ((p.get b).set i true)).get b').get k = true := by
  rw [PerBank.get_set]
  split
  next hb => subst hb; exact Tab.get_set_true _ _ _ h
  next => exact h

/-- A mark of a character-RAM byte clears no tile (R130). -/
theorem tileIsDirty_markChar_mono {s : State} {b : Bank} {k : Nat} (off : Nat) (h : s.tileIsDirty b k = true) :
    (s.markChar off).tileIsDirty b k = true := PerBank.get_set_true h

/-- A mark of a character-RAM byte clears no pattern (R130). -/
theorem spatIsDirty_markChar_mono {s : State} {b : Bank} {k : Nat} (off : Nat) (h : s.spatIsDirty b k = true) :
    (s.markChar off).spatIsDirty b k = true := PerBank.get_set_true h

/-- A mark of a cell clears no cell (R131). -/
theorem cellIsDirty_markCell_mono {s : State} {m : Plane} {d : Nat} (n : Plane) (c : Nat)
    (h : s.cellIsDirty m d = true) : (s.markCell n c).cellIsDirty m d = true := by
  rw [State.cellIsDirty, State.markCell_cellDirty, PerPlane.get_set]
  split
  next hm => subst hm; exact Tab.get_set_true _ _ _ h
  next => exact h

/-- Every tile is dirty in the state RESET creates (R370). -/
theorem tileIsDirty_recreate (s : State) (b : Bank) (k : Nat) : s.recreate.tileIsDirty b k = true := by
  cases b <;> exact Tab.get_fill true 8 k

/-- Every pattern is dirty in the state RESET creates (R370). -/
theorem spatIsDirty_recreate (s : State) (b : Bank) (k : Nat) : s.recreate.spatIsDirty b k = true := by
  cases b <;> exact Tab.get_fill true 6 k

/-- Every cell is dirty in the state RESET creates (R370). -/
theorem cellIsDirty_recreate (s : State) (n : Plane) (c : Nat) : s.recreate.cellIsDirty n c = true := by
  cases n <;> exact Tab.get_fill true 10 c

/-- No effect but FRAME's clears the dirty bit of a tile or a pattern (R86, R156). -/
theorem Effect.charDirty_mono {s t : State} {i : Instr} (h : Effect s i t) (hframe : i ≠ .frame) (b : Bank) (k : Nat) :
    (s.tileIsDirty b k = true → t.tileIsDirty b k = true) ∧ (s.spatIsDirty b k = true → t.spatIsDirty b k = true) := by
  cases h with
  | frame => exact absurd rfl hframe
  | cram off => exact ⟨tileIsDirty_markChar_mono off, spatIsDirty_markChar_mono off⟩
  | reset => exact ⟨fun _ => tileIsDirty_recreate s b k, fun _ => spatIsDirty_recreate s b k⟩
  | vram | colscroll | spram | palram | collclr | other => exact ⟨id, id⟩

/-- What a transaction other than FRAME does to the cells: it keeps every bit, marks one cell, or leaves all dirty. -/
inductive CellMarks (s t : State) : Prop where
  | kept (h : t.cellDirty = s.cellDirty)
  | one (n : Plane) (c : Nat) (h : t.cellDirty = (s.markCell n c).cellDirty)
  | all (h : ∀ n c, t.cellIsDirty n c = true)

theorem CellMarks.mono {s t : State} (h : CellMarks s t) {n : Plane} {c : Nat} (hc : s.cellIsDirty n c = true) :
    t.cellIsDirty n c = true := by
  cases h with
  | kept h => rw [State.cellIsDirty, h]; exact hc
  | one m d h => rw [State.cellIsDirty, h]; exact cellIsDirty_markCell_mono m d hc
  | all h => exact h n c

theorem CellMarks.of_next {s t u : State} (h : (.next u : Host.Outcome State Fault Refusal) = .next t)
    (hu : CellMarks s u) : CellMarks s t := Host.Outcome.next.inj h ▸ hu

theorem CellMarks.of_inVariant {s t u : State} {v : ProtVariant} (h : inVariant s v u = .next t)
    (hu : u.cellDirty = s.cellDirty) : CellMarks s t := (inVariant_eq_next.1 h).2 ▸ .kept hu

/-- An update chosen by a condition marks cells in one of the ways if both updates do. -/
theorem CellMarks.ite {c : Prop} [Decidable c] {s a b : State} (ha : CellMarks s a) (hb : CellMarks s b) :
    CellMarks s (if c then a else b) := by
  split
  · exact ha
  · exact hb

theorem storeVram_cellMarks (s : State) (n : Plane) (off : Nat) (v : Byte) :
    CellMarks s (s.storeVram n off v).quiet := by
  rcases storeVram_spec s n off v with ⟨h, -⟩ | ⟨h, -⟩
  · rw [h]; exact .kept rfl
  · rw [h]; exact .one n off rfl

theorem storeCram_cellDirty (s : State) (off : Nat) (v : Byte) : (s.storeCram off v).cellDirty = s.cellDirty := by
  rcases storeCram_spec s off v with ⟨h, -⟩ | ⟨h, -⟩ <;> rw [h]
  rfl

theorem drain_cellDirty (s : State) : s.drain.cellDirty = s.cellDirty := by
  rw [drain_frame]

theorem portDrawn_cellDirty (s : State) : s.portDrawn.cellDirty = s.cellDirty := by
  unfold State.portDrawn; split <;> rfl

theorem portBits_cellDirty (v : Byte) (ks : List Nat) (s : State) :
    (ks.foldl (portBit v) s).cellDirty = s.cellDirty := by
  rw [portBits_frame]

/-- Every transaction but FRAME that completes treats the cells in one of the ways (R131, R144, R153, R370). -/
theorem cellMarks_of_exec {i : Instr} {s t : State} (h : exec i s = .next t) (hframe : i ≠ .frame) : CellMarks s t := by
  cases i with
  | frame => exact absurd rfl hframe
  | reset => exact .of_next h (.all (cellIsDirty_recreate s))
  | cwVram0 off v => exact .of_next h (storeVram_cellMarks s .front off v)
  | cwVram1 off v => exact .of_next h (storeVram_cellMarks s .middle off v)
  | cwVram2 off v => exact .of_next h (storeVram_cellMarks s .back off v)
  | cwColorbank | cwViden => exact .of_next h (.ite (.kept rfl) (.all (cellIsDirty_markAllCells s)))
  | cwCram off v => exact .of_next h (.kept (storeCram_cellDirty s off v))
  | sync => exact .of_next h (.kept (drain_cellDirty s))
  | cwMcudata | crMcudata => exact .of_next h (.ite (.kept rfl) (.kept rfl))
  | crMcustatus =>
    refine .of_next h (.ite (.kept ?_) (.kept rfl))
    rw [State.respond, State.withOut_cellDirty]
    split
    next => exact drain_cellDirty s
    next => rfl
  | mwPortb v => exact .of_inVariant h (portBits_cellDirty v portBits s.quiet)
  | crAlpinein => exact .of_inVariant h (portDrawn_cellDirty s)
  | mrPorta | mwPorta | mrPortb | mrPortc | cwAlpinecode => exact .of_inVariant h rfl
  | cwColscroll | cwSpram | cwPalram | crVram0 | crVram1 | crVram2 | crColscroll | crSpram | cwPriority | cwScroll
  | crColl | cwCollclr | cwGfxptr | crGfxrom | cwBanksw => exact .of_next h (.kept rfl)

end Sys2Proof.Machine
end

section
/-! CERTIFICATE. The statements of spec/20_memory.md, settled. -/

namespace Sys2Proof.Proofs.BusMemory

open Sys2Proof.Machine

/-- Settles O4: a port is selected only by a range that holds the address, so the offset lies inside the port. -/
theorem decodedIsWellFormed : Obligations.DecodedIsWellFormed :=
  fun _ _ _ => wellFormed_of_decode

/-- Settles O26: SYNC answers the drained state, and each field of it is the fold of what one event does to the field. -/
theorem syncDrains : Obligations.SyncDrains := by
  intro s
  have field {α : Type} (f : State → α) {act : α → Deferred → α}
      (happly : ∀ u e, act (f u) e = f (applyDeferred u e)) := foldl_applyDeferred_field f act happly s.evq s
  refine ⟨s.drain.quiet, rfl, rfl, field State.zready ?_, field State.zaccept ?_, field State.mcuIrq ?_,
    field State.fromz80 ?_, field State.toz80 ?_, congrArg State.quiet (drain_frame s)⟩
  all_goals
    intro u e
    cases e <;> rfl

/-- Settles O51: the tiles and patterns by the effects on the storage, the cells by their marks. -/
theorem dirtyBitsOnlyGrow : Obligations.DirtyBitsOnlyGrow := by
  intro i s t h hframe
  have hchar := (effect_of_exec h).charDirty_mono hframe
  exact ⟨fun b k => (hchar b k).1, fun b k => (hchar b k).2, fun _ _ => (cellMarks_of_exec h hframe).mono⟩

/-- Settles O13: a write leaves the byte in a canonical RAM, and the read answers the byte there. -/
theorem storeThenLoad : Obligations.StoreThenLoad := by
  intro s off v hm
  refine ⟨fun n _ => ⟨_, _, exec_vramWrite n off v s, exec_vramRead n off _, ?_⟩, fun _ => ⟨_, _, rfl, rfl, ?_⟩,
    fun _ => ⟨_, _, rfl, rfl, ?_⟩⟩
  · exact congrArg some (read_storeVram_same (hm.vram n).1 off v)
  · exact congrArg some (Memory.read_write_same hm.colscroll.1 off v)
  · exact congrArg some (Memory.read_write_same hm.spram.1 off v)

end Sys2Proof.Proofs.BusMemory
end

section
/-! SUPPORT. What a trace word decodes to, an equation for each class of kind field, and the fields of the transaction an
access decodes to (spec/30_encoding.md R101, R102, R107, R108, R110); a port B byte that asserts no line and the stops of
the protection variants (spec/46_mcu_bridge.md R290, R301). -/

namespace Sys2Proof.Machine

/-! ### Accesses -/

/-- `Port.all` lists every port (R102). -/
theorem mem_portAll (p : Port) : p ∈ Port.all := by
  cases p <;> decide

/-- The kind of an access of a space in a direction (R100, R101). -/
def accessKind : Space → Dir → Kind
  | .cpu, .write => .cw
  | .cpu, .read => .cr
  | .mcu, .write => .mw
  | .mcu, .read => .mr

/-- The access of a port in a direction, if it has one (R107). -/
def accessOf (d : Dir) (p : Port) (off : Nat) (v : Byte) : Option Instr :=
  match d with
  | .write => writeOf p off v
  | .read => readOf p off

/-- The data byte of the word for an access: the byte written, 0 for a read (R101). -/
def accessData (d : Dir) (v : Byte) : Byte :=
  match d with
  | .write => v
  | .read => 0

theorem accessKind_is_read_iff {sp : Space} {d : Dir} :
    accessKind sp d = .cr ∨ accessKind sp d = .mr ↔ d = .read := by
  cases sp <;> cases d <;> decide

theorem decodeAccess_of_select {m : AddrMap} {sp : Space} {d : Dir} {a : Nat} {p : Port} {off : Nat}
    (hsel : m.select sp d a = some (p, off)) (v : Byte) :
    decodeAccess m sp d a v = (accessOf d p off v).elim (.error .missingDirection) .ok := by
  simp only [decodeAccess, hsel, accessOf]
  cases d with
  | write => cases writeOf p off v <;> rfl
  | read => cases readOf p off <;> rfl

/-- An address decodes to the access, in its direction, of the port selected there (R102). -/
theorem decodeAccess_eq_ok_iff {m : AddrMap} {sp : Space} {d : Dir} {a : Nat} {v : Byte} {i : Instr} :
    decodeAccess m sp d a v = .ok i ↔ ∃ p off, m.select sp d a = some (p, off) ∧ accessOf d p off v = some i := by
  cases hsel : m.select sp d a with
  | none => simp [decodeAccess, hsel]
  | some q =>
    obtain ⟨p, off⟩ := q
    cases hacc : accessOf d p off v <;> simp [decodeAccess_of_select hsel, hacc]

/-- The port, offset and kind of a port's access, and the data byte of its word (R101, R104, R107). -/
structure IsAccess (i : Instr) (d : Dir) (p : Port) (off : Nat) (v : Byte) : Prop where
  port : i.port = some p
  offset : i.offset = off
  kind : i.kind = accessKind p.space d
  data : i.data = accessData d v

theorem isAccess_of_writeOf {p : Port} {off : Nat} {v : Byte} {i : Instr} (h : writeOf p off v = some i)
    (hoff : off < p.size) : IsAccess i .write p off v := by
  cases p with
  | cram | vram0 | vram1 | vram2 | colscroll | spram | palram | scroll | colorbank | gfxptr =>
    cases h; exact ⟨rfl, rfl, rfl, rfl⟩
  | mcudata | priority | collclr | banksw | alpinecode | viden | porta | portb =>
    cases h; exact ⟨rfl, (Nat.lt_one_iff.1 hoff).symm, rfl, rfl⟩
  | mcustatus | coll | gfxrom | alpinein | portc => cases h

theorem isAccess_of_readOf {p : Port} {off : Nat} {i : Instr} (h : readOf p off = some i) (hoff : off < p.size)
    (v : Byte) : IsAccess i .read p off v := by
  cases p with
  | vram0 | vram1 | vram2 | colscroll | spram | coll => cases h; exact ⟨rfl, rfl, rfl, rfl⟩
  | mcudata | mcustatus | gfxrom | alpinein | porta | portb | portc =>
    cases h; exact ⟨rfl, (Nat.lt_one_iff.1 hoff).symm, rfl, rfl⟩
  | cram | palram | priority | scroll | colorbank | collclr | gfxptr | banksw | alpinecode | viden => cases h

theorem isAccess_of_accessOf {d : Dir} {p : Port} {off : Nat} {v : Byte} {i : Instr}
    (h : accessOf d p off v = some i) (hoff : off < p.size) : IsAccess i d p off v := by
  cases d with
  | write => exact isAccess_of_writeOf h hoff
  | read => exact isAccess_of_readOf h hoff v

/-- A well-formed transaction is an access of a port, inside the port and in a direction the port has, or an event of the
host (R100, R104, R107). -/
theorem accessOf_or_host {i : Instr} (h : WellFormed i = true) :
    (∃ d p, i.port = some p ∧ accessOf d p i.offset i.data = some i ∧ p.has d = true ∧ i.offset < p.size) ∨
      i.agent = .host := by
  cases i with
  | cwCram | cwVram0 | cwVram1 | cwVram2 | cwColscroll | cwSpram | cwPalram | cwScroll | cwColorbank | cwGfxptr =>
    exact .inl ⟨.write, _, rfl, rfl, rfl, of_decide_eq_true h⟩
  | cwPriority | cwCollclr | cwBanksw | cwViden | cwMcudata | cwAlpinecode | mwPorta | mwPortb =>
    exact .inl ⟨.write, _, rfl, rfl, rfl, Nat.one_pos⟩
  | crVram0 | crVram1 | crVram2 | crColscroll | crSpram | crColl =>
    exact .inl ⟨.read, _, rfl, rfl, rfl, of_decide_eq_true h⟩
  | crGfxrom | crMcudata | crMcustatus | crAlpinein | mrPorta | mrPortb | mrPortc =>
    exact .inl ⟨.read, _, rfl, rfl, rfl, Nat.one_pos⟩
  | sync | frame | reset => exact .inr rfl

/-! ### Decoding by the kind field -/

/-- A kind field is an access's, a host event's, or reserved (R101). -/
theorem kindBits_cases (k : BitVec 4) :
    (∃ sp d, k = (accessKind sp d).bits) ∨ (∃ e : Instr, e.agent = .host ∧ k = e.kind.bits) ∨ 7 ≤ k.toNat := by
  obtain ⟨⟨n, hn⟩⟩ := k
  rcases Nat.lt_or_ge n 7 with h7 | h7
  · interval_cases n
    · exact .inl ⟨.cpu, .write, rfl⟩
    · exact .inl ⟨.cpu, .read, rfl⟩
    · exact .inl ⟨.mcu, .write, rfl⟩
    · exact .inl ⟨.mcu, .read, rfl⟩
    · exact .inr (.inl ⟨.sync, rfl, rfl⟩)
    · exact .inr (.inl ⟨.frame, rfl, rfl⟩)
    · exact .inr (.inl ⟨.reset, rfl, rfl⟩)
  · exact .inr (.inr h7)

theorem decode_of_zeroBits_ne {m : AddrMap} {w : TraceWord} (hz : w.zeroBits ≠ 0) :
    decode m w = .error .reservedBits := if_pos hz

theorem decode_of_reservedKind {m : AddrMap} {w : TraceWord} (hz : w.zeroBits = 0) (hk : 7 ≤ w.kindBits.toNat) :
    decode m w = .error .reservedKind := by
  rw [decode, if_neg (not_not_intro hz)]
  split
  case h_8 => rfl
  all_goals omega

theorem decode_of_accessKind {m : AddrMap} {w : TraceWord} {sp : Space} {d : Dir} (hz : w.zeroBits = 0)
    (hk : w.kindBits = (accessKind sp d).bits) :
    decode m w = decodeAccess m sp d w.addrBits.toNat w.dataBits := by
  rw [decode, if_neg (not_not_intro hz), hk]
  cases sp <;> cases d <;> rfl

theorem decode_of_hostKind {m : AddrMap} {w : TraceWord} {i : Instr} (hz : w.zeroBits = 0) (hi : i.agent = .host)
    (hk : w.kindBits = i.kind.bits) : decode m w = decodeHost w i := by
  rw [decode, if_neg (not_not_intro hz), hk]
  cases i with
  | sync | frame | reset => rfl
  | _ => cases hi

theorem decodeHost_eq_ok_iff {w : TraceWord} {e i : Instr} :
    decodeHost w e = .ok i ↔ (w.addrBits = 0 ∧ w.dataBits = 0) ∧ e = i := by
  simp only [decodeHost, Bool.and_eq_true, decide_eq_true_eq]
  split
  next h => simp only [h, and_self, true_and, Except.ok.injEq]
  next h => exact ⟨nofun, fun hok => absurd hok.1 h⟩

/-- What a word that decodes looks like: bits 27:24 are 0, and it is an access of the port selected at its address, or a
host event with address and data 0 (R101, R102). -/
theorem decode_eq_ok_iff {m : AddrMap} {w : TraceWord} {i : Instr} :
    decode m w = .ok i ↔ w.zeroBits = 0 ∧
      ((∃ sp d, w.kindBits = (accessKind sp d).bits ∧ decodeAccess m sp d w.addrBits.toNat w.dataBits = .ok i) ∨
        i.agent = .host ∧ w.kindBits = i.kind.bits ∧ w.addrBits = 0 ∧ w.dataBits = 0) := by
  constructor
  · intro h
    by_cases hz : w.zeroBits = 0
    · refine ⟨hz, ?_⟩
      rcases kindBits_cases w.kindBits with ⟨sp, d, hk⟩ | ⟨e, he, hk⟩ | hk
      · exact .inl ⟨sp, d, hk, decode_of_accessKind hz hk ▸ h⟩
      · rw [decode_of_hostKind hz he hk, decodeHost_eq_ok_iff] at h
        obtain ⟨⟨ha, hv⟩, rfl⟩ := h
        exact .inr ⟨he, hk, ha, hv⟩
      · rw [decode_of_reservedKind hz hk] at h
        cases h
    · rw [decode_of_zeroBits_ne hz] at h
      cases h
  · rintro ⟨hz, ⟨sp, d, hk, h⟩ | ⟨hi, hk, ha, hv⟩⟩
    · exact (decode_of_accessKind hz hk).trans h
    · exact (decode_of_hostKind hz hi hk).trans (decodeHost_eq_ok_iff.2 ⟨⟨ha, hv⟩, rfl⟩)

/-! ### Encoding -/

/-- The word of an access, at the address of its offset in the port's range (R110). -/
theorem IsAccess.encode_eq {m : AddrMap} (hm : m.wf) {e : PortRange} (he : e ∈ m) {i : Instr} {d : Dir} {off : Nat}
    {v : Byte} (h : IsAccess i d e.port off v) :
    encode m i =
      TraceWord.pack (accessKind e.port.space d).bits (BitVec.ofNat 16 (e.first + off)) (accessData d v) := by
  rw [encode, h.kind, h.port, h.offset, h.data, address_eq hm he]

/-- The word of a host event: address and data are 0 (R101). -/
theorem encode_host {i : Instr} (hi : i.agent = .host) (m : AddrMap) :
    encode m i = TraceWord.pack i.kind.bits 0 0 := by
  cases i with
  | sync | frame | reset => rfl
  | _ => cases hi

theorem host_kind_not_read {i : Instr} (hi : i.agent = .host) : ¬(i.kind = .cr ∨ i.kind = .mr) := by
  rintro (h | h) <;> rw [Instr.agent, h] at hi <;> cases hi

/-- Clearing the data byte of a word leaves its other fields (R101). -/
theorem pack_and_0xFFFFFF00 (k : BitVec 4) (a : BusAddr) (v : Byte) :
    TraceWord.pack k a v &&& 0xFFFFFF00 = TraceWord.pack k a 0 := by
  have hmask : (0xFFFFFF00 : TraceWord) = BitVec.allOnes 24 ++ 0#8 := by decide
  rw [hmask]
  exact BitVec.and_append.trans (by rw [BitVec.and_allOnes, BitVec.and_zero]; rfl)

/-- The address of an offset inside a port's range fits the address field (R101, R102). -/
theorem toNat_portAddress {m : AddrMap} (hm : m.wf) {e : PortRange} (he : e ∈ m) {off : Nat}
    (hoff : off < e.port.size) : (BitVec.ofNat 16 (e.first + off)).toNat = e.first + off := by
  obtain ⟨hsize, hlast⟩ := hm.2.1 e he
  rw [BitVec.toNat_ofNat]
  omega

/-! ### Port B and the variants -/

/-- A bit with no line, or whose line is not asserted, does nothing (R106, R301). -/
theorem portBit_of_unasserted {v : Byte} {s : State} {k : Nat}
    (h : ∀ l, s.cfg.portbMap[k]? = some (some l) → v.getLsbD k = true) : portBit v s k = s := by
  unfold portBit
  split
  next => rfl
  next l hl => exact if_pos (h l (Option.join_eq_some_iff.1 hl))

theorem inVariant_of_eq {s : State} {v : ProtVariant} (h : s.cfg.protVariant = v) (t : State) :
    inVariant s v t = .next t := if_pos h

theorem inVariant_of_ne {s : State} {v : ProtVariant} (h : s.cfg.protVariant ≠ v) (t : State) :
    inVariant s v t = .refused .absentInVariant := if_neg h

end Sys2Proof.Machine
end

section
/-! CERTIFICATE. The statements of spec/30_encoding.md, settled. -/

namespace Sys2Proof.Proofs.Encoding

open Sys2Proof.Machine

/-- Settles O2: the word's fields are the transaction's, and its address selects the transaction's port. -/
theorem decodeOfEncode : Obligations.DecodeOfEncode := by
  intro m i hm hw
  rcases accessOf_or_host hw with ⟨d, p, -, hacc, hdir, hoff⟩ | hhost
  · obtain ⟨e, he, rfl⟩ := hm.1 p (mem_portAll p)
    have hsel : m.select e.port.space d (e.first + i.offset) = some (e.port, i.offset) := select_of_mem hm he hdir hoff
    have hi : IsAccess i d e.port i.offset i.data := isAccess_of_accessOf hacc hoff
    rw [hi.encode_eq hm he, ← hi.data]
    refine decode_eq_ok_iff.2 ⟨zeroBits_pack _ _ _, .inl ⟨e.port.space, d, kindBits_pack _ _ _, ?_⟩⟩
    rw [addrBits_pack, dataBits_pack, toNat_portAddress hm he hoff]
    exact decodeAccess_eq_ok_iff.2 ⟨_, _, hsel, hacc⟩
  · rw [encode_host hhost]
    exact decode_eq_ok_iff.2 ⟨zeroBits_pack _ _ _,
      .inr ⟨hhost, kindBits_pack _ _ _, addrBits_pack _ _ _, dataBits_pack _ _ _⟩⟩

/-- Settles O3: the transaction has the fields of the word, but that a read has no data byte. -/
theorem encodeOfDecode : Obligations.EncodeOfDecode := by
  intro m w i hm h
  obtain ⟨hz, ⟨sp, d, hk, hd⟩ | ⟨hhost, hk, ha, hv⟩⟩ := decode_eq_ok_iff.1 h
  · obtain ⟨p, off, hsel, hacc⟩ := decodeAccess_eq_ok_iff.1 hd
    obtain ⟨e, he, rfl, rfl, -, haddr, hoff⟩ := select_eq_some hsel
    have hi : IsAccess i d e.port off w.dataBits := isAccess_of_accessOf hacc hoff
    have henc : encode m i = TraceWord.pack w.kindBits w.addrBits (accessData d w.dataBits) := by
      rw [hi.encode_eq hm he, haddr, BitVec.ofNat_toNat, BitVec.setWidth_eq, hk]
    rw [henc, hi.kind, if_congr accessKind_is_read_iff rfl rfl]
    cases d with
    | write => exact pack_fields w hz
    | read =>
      calc TraceWord.pack w.kindBits w.addrBits 0
          = TraceWord.pack w.kindBits w.addrBits w.dataBits &&& 0xFFFFFF00 := (pack_and_0xFFFFFF00 _ _ _).symm
        _ = w &&& 0xFFFFFF00 := by rw [pack_fields w hz]
  · calc encode m i = TraceWord.pack w.kindBits w.addrBits w.dataBits := by rw [encode_host hhost, hk, ha, hv]
      _ = w := pack_fields w hz
      _ = _ := (if_neg (host_kind_not_read hhost)).symm

/-- Settles O25: no bit of the byte changes the state, so the fold over the bits leaves it. -/
theorem unassertedLinesDoNothing : Obligations.UnassertedLinesDoNothing := by
  intro s v hmcu hlines
  have hbit : ∀ k, portBit v s.quiet k = s.quiet := fun k => portBit_of_unasserted (hlines k)
  calc exec (.mwPortb v) s = .next (portBits.foldl (portBit v) s.quiet) := inVariant_of_eq hmcu _
    _ = .next s.quiet := by rw [List.foldl_fixed' hbit]

/-- Settles O1, by running the decoder on the ten words. -/
theorem specWordsDecode : Obligations.SpecWordsDecode := by
  unfold Obligations.SpecWordsDecode
  decide

/-- Settles O5. -/
theorem reservedWordsRejected : Obligations.ReservedWordsRejected :=
  fun _ _ => ⟨decode_of_zeroBits_ne, decode_of_reservedKind⟩

/-- Settles O28: each of these transactions asks for its variant. -/
theorem variantsRefuse : Obligations.VariantsRefuse := by
  refine fun s v => ⟨fun h i hi => ?_, fun h i hi => ?_⟩ <;> fin_cases hi <;> exact inVariant_of_ne h _

end Sys2Proof.Proofs.Encoding
end

section
/-! SUPPORT. The rules of the registers and RAMs the CPU reaches over the bus: what a store leaves where it stores and
elsewhere, what it marks, and what of FRAME reads palette RAM (spec/40_bus_registers.md R130 to R153;
spec/44_compositor.md R233, R235). -/

namespace Sys2Proof.Machine

/-! ### Character RAM -/

/-- A byte written to character RAM reads back, whether or not it changed the RAM (R130). -/
theorem read_storeCram_same {s : State} (h : s.cram.wf) (off : Nat) (v : Byte) :
    (s.storeCram off v).cram.read off = v := by
  rcases storeCram_spec s off v with ⟨hsame, hv⟩ | ⟨hstore, -⟩
  · rw [hsame, hv]
  · rw [hstore, Memory.read_write_same h]

theorem read_storeCram_ne (s : State) {off a : Nat} (ha : a ≠ off) (v : Byte) :
    (s.storeCram off v).cram.read a = s.cram.read a := by
  rcases storeCram_spec s off v with ⟨hsame, -⟩ | ⟨hstore, -⟩
  · rw [hsame]
  · rw [hstore, Memory.read_write_ne _ ha]

/-- A write to character RAM marks its tile exactly when the byte changes (R130). -/
theorem tileIsDirty_storeCram (s : State) (off : Nat) (v : Byte) (b : Bank) {i : Nat} (hi : i < 256) :
    (s.storeCram off v).tileIsDirty b i =
      (s.tileIsDirty b i || (s.cram.read off != v && b == bankOf off && i == tileOf off)) := by
  rcases storeCram_spec s off v with ⟨hsame, hv⟩ | ⟨hstore, hv⟩
  · simp [hsame, hv]
  · rw [hstore, bne_iff_ne.2 hv, Bool.true_and]
    exact tileIsDirty_markChar s off b hi

/-- A write to character RAM marks its pattern exactly when the byte changes (R130). -/
theorem spatIsDirty_storeCram (s : State) (off : Nat) (v : Byte) (b : Bank) {i : Nat} (hi : i < 64) :
    (s.storeCram off v).spatIsDirty b i =
      (s.spatIsDirty b i || (s.cram.read off != v && b == bankOf off && i == spatOf off)) := by
  rcases storeCram_spec s off v with ⟨hsame, hv⟩ | ⟨hstore, hv⟩
  · simp [hsame, hv]
  · rw [hstore, bne_iff_ne.2 hv, Bool.true_and]
    exact spatIsDirty_markChar s off b hi

/-- A write to character RAM changes that RAM and the marks of its tiles and patterns alone (R130). -/
theorem storeCram_frame (s : State) (off : Nat) (v : Byte) :
    s.storeCram off v = { s with
      cram := (s.storeCram off v).cram
      tileDirty := (s.storeCram off v).tileDirty
      spatDirty := (s.storeCram off v).spatDirty } := by
  rcases storeCram_spec s off v with ⟨h, -⟩ | ⟨h, -⟩ <;> rw [h]
  rfl

/-! ### Video RAM -/

theorem read_storeVram_ne (s : State) {n m : Plane} {off a : Nat} (ha : ¬(m = n ∧ a = off)) (v : Byte) :
    ((s.storeVram n off v).vram.get m).read a = (s.vram.get m).read a := by
  rcases storeVram_spec s n off v with ⟨hsame, -⟩ | ⟨hstore, -⟩
  · rw [hsame]
  · rw [hstore, PerPlane.get_set]
    split
    next hm => subst hm; exact Memory.read_write_ne _ (fun hoff => ha ⟨rfl, hoff⟩) v
    next => rfl

/-- A write to video RAM marks its cell exactly when the byte changes (R131 to R133). -/
theorem cellIsDirty_storeVram (s : State) (n : Plane) {off : Nat} (hoff : off < 1024) (v : Byte) (m : Plane) {c : Nat}
    (hc : c < 1024) :
    (s.storeVram n off v).cellIsDirty m c =
      (s.cellIsDirty m c || ((s.vram.get n).read off != v && m == n && c == off)) := by
  rcases storeVram_spec s n off v with ⟨hsame, hv⟩ | ⟨hstore, hv⟩
  · simp [hsame, hv]
  · rw [hstore, bne_iff_ne.2 hv, Bool.true_and]
    exact cellIsDirty_markCell s n hoff m hc

/-- A write to video RAM changes that RAM and the marks of its cells alone (R131 to R133). -/
theorem storeVram_frame (s : State) (n : Plane) (off : Nat) (v : Byte) :
    s.storeVram n off v = { s with
      vram := (s.storeVram n off v).vram
      cellDirty := (s.storeVram n off v).cellDirty } := by
  rcases storeVram_spec s n off v with ⟨h, -⟩ | ⟨h, -⟩ <;> rw [h]
  rfl

/-! ### The registers that mark every cell -/

theorem exec_cwColorbank_of_eq {s : State} {off : Nat} {v : Byte} (h : regGet s.colorbank off = v) :
    exec (.cwColorbank off v) s = .next s.quiet := congrArg _ (if_pos h)

theorem exec_cwColorbank_of_ne {s : State} {off : Nat} {v : Byte} (h : regGet s.colorbank off ≠ v) :
    exec (.cwColorbank off v) s = .next { s.quiet.markAllCells with colorbank := regSet s.colorbank off v } :=
  congrArg _ (if_neg h)

theorem exec_cwViden_of_eq {s : State} {v : Byte} (h : s.viden = v) : exec (.cwViden v) s = .next s.quiet :=
  congrArg _ (if_pos h)

theorem exec_cwViden_of_ne {s : State} {v : Byte} (h : s.viden ≠ v) :
    exec (.cwViden v) s = .next { s.quiet.markAllCells with viden := v } := congrArg _ (if_neg h)

/-- The same byte marks nothing (R144, R153). -/
theorem mark_of_same {old v : Byte} (h : old = v) (d : Bool) : d = (d || old != v) := by
  rw [bne_eq_false_iff_eq.2 h, Bool.or_false]

/-- Another byte marks everything (R144, R153). -/
theorem mark_of_changed {old v : Byte} (h : old ≠ v) (d : Bool) : true = (d || old != v) := by
  rw [bne_iff_ne.2 h, Bool.or_true]

/-! ### Fields of the single registers -/

/-- The five low bits of a byte, those of `PRIORITY` that are used, are its value modulo 32 (R142). -/
theorem toNat_and_0x1F (v : Byte) : (v &&& 0x1F).toNat = v.toNat % 32 := by
  rw [BitVec.toNat_and]
  exact Nat.and_two_pow_sub_one_eq_mod v.toNat 5

/-- Bit 7 of a byte is set exactly in its upper half (R152). -/
theorem getLsbD_seven_eq (v : Byte) : v.getLsbD 7 = decide (0x80 ≤ v.toNat) := by
  have hv := v.isLt
  rw [BitVec.getLsbD, Nat.testBit_eq_decide_div_mod_eq, decide_eq_decide]
  omega

/-! ### The graphics-ROM pointer -/

theorem gfxptrNext_of_carry {p : Vector Byte 2} (h : regGet p 0 + 1 = 0) :
    regGet (gfxptrNext p) 0 = 0 ∧ regGet (gfxptrNext p) 1 = regGet p 1 + 1 := by
  rw [gfxptrNext, regGet_regSet_same _ (by decide), if_pos h, regGet_regSet_ne _ (by decide),
    regGet_regSet_same _ (by decide), regGet_regSet_same _ (by decide), regGet_regSet_ne _ (by decide)]
  exact ⟨h, rfl⟩

theorem gfxptrNext_of_not_carry {p : Vector Byte 2} (h : regGet p 0 + 1 ≠ 0) :
    regGet (gfxptrNext p) 0 = regGet p 0 + 1 ∧ regGet (gfxptrNext p) 1 = regGet p 1 := by
  rw [gfxptrNext, regGet_regSet_same _ (by decide), if_neg h, regGet_regSet_same _ (by decide),
    regGet_regSet_ne _ (by decide)]
  exact ⟨rfl, rfl⟩

/-- The pointer increments as one 16-bit value (R151). -/
theorem gfxptrNext_toNat (p : Vector Byte 2) :
    256 * (regGet (gfxptrNext p) 1).toNat + (regGet (gfxptrNext p) 0).toNat =
      (256 * (regGet p 1).toNat + (regGet p 0).toNat + 1) % 65536 := by
  by_cases h : regGet p 0 + 1 = 0
  · obtain ⟨hlow, hhigh⟩ := gfxptrNext_of_carry h
    rw [hlow, hhigh]
    bv_omega
  · obtain ⟨hlow, hhigh⟩ := gfxptrNext_of_not_carry h
    rw [hlow, hhigh]
    bv_omega

/-! ### Palette RAM -/

/-- What steps 4 to 6 of FRAME put out from a prepared state and a sprite scan (R235). -/
def State.scanOut (p : State) (scan : List Sprite) : FrameOut where
  surface := (p.composite scan).surface
  colours := Tab.tabulate 6 p.rgb

theorem rendered_out (s : State) :
    s.rendered.out = { Outputs.none with frame := some (s.prepared.scanOut s.prepared.spriteScan) } := rfl

/-- Steps 1 to 3 of FRAME read no palette RAM. -/
theorem prepared_with_palram (s : State) (m : Memory) :
    ({ s with palram := m } : State).prepared = { s.prepared with palram := m } := rfl

/-- The sprite scan reads no palette RAM. -/
theorem spriteScan_with_palram (s : State) (m : Memory) : ({ s with palram := m } : State).spriteScan = s.spriteScan :=
  rfl

/-- The composite reads no palette RAM: the surface holds palette indices, not colours (R235). -/
theorem scanOut_with_palram (p : State) (m : Memory) (scan : List Sprite) :
    (({ p with palram := m } : State).scanOut scan).surface = (p.scanOut scan).surface := rfl

/-- Steps 4 to 6 of FRAME read palette RAM for what they put out alone (R235, R260). -/
theorem renderScan_with_palram (p : State) (m : Memory) (scan : List Sprite) :
    ({ p with palram := m } : State).renderScan scan =
      { p.renderScan scan with
        palram := m
        out := { Outputs.none with frame := some (({ p with palram := m } : State).scanOut scan) } } := rfl

/-- With another palette RAM a FRAME does all alike but for what it puts out. -/
theorem rendered_with_palram (s : State) (m : Memory) :
    ({ s with palram := m } : State).rendered =
      { s.rendered with
        palram := m
        out := { Outputs.none with
          frame := some (({ s.prepared with palram := m } : State).scanOut s.prepared.spriteScan) } } := by
  rw [rendered_eq_renderScan, prepared_with_palram, spriteScan_with_palram, renderScan_with_palram,
    rendered_eq_renderScan]

/-- A pair of 0x00 sets every gun to the sum of its weights: the bits are inverted (R233). -/
theorem rgbOf_zero (w : PalWeight) :
    rgbOf w 0x00 0x00 = ⟨w.w0 + w.w1 + w.w2, w.w0 + w.w1 + w.w2, w.w0 + w.w1 + w.w2⟩ := rfl

/-- A pair of 0xFF sets every gun to 0 (R233). -/
theorem rgbOf_ones (w : PalWeight) : rgbOf w 0xFF 0xFF = ⟨0, 0, 0⟩ := rfl

/-- The state after writing the pair of palette entry `i`. -/
def State.withPalPair (s : State) (i : Nat) (e o : Byte) : State :=
  { s.quiet with palram := (s.palram.write (2 * i) e).write (2 * i + 1) o }

theorem exec_cwPalram_pair (s : State) (i : Nat) (e o : Byte) :
    ∃ t, exec (.cwPalram (2 * i) e) s = .next t ∧ exec (.cwPalram (2 * i + 1) o) t = .next (s.withPalPair i e o) :=
  ⟨{ s.quiet with palram := s.palram.write (2 * i) e }, rfl, rfl⟩

/-- The pair written is the colour of its entry (R233). -/
theorem rgb_withPalPair_same {s : State} (h : s.palram.wf) (i : Nat) (e o : Byte) :
    (s.withPalPair i e o).rgb i = rgbOf s.cfg.palWeight e o := by
  have heven : (s.withPalPair i e o).palram.read (2 * i) = e := by
    rw [State.withPalPair, Memory.read_write_ne _ (by omega), Memory.read_write_same h]
  have hodd : (s.withPalPair i e o).palram.read (2 * i + 1) = o :=
    Memory.read_write_same (Memory.write_wf h _ _) _ _
  rw [State.rgb, heven, hodd]
  rfl

/-- The pair of one entry is no byte of another (R141). -/
theorem rgb_withPalPair_ne (s : State) {i j : Nat} (hj : j ≠ i) (e o : Byte) :
    (s.withPalPair i e o).rgb j = s.rgb j := by
  have hread : ∀ a, a ≠ 2 * i → a ≠ 2 * i + 1 → (s.withPalPair i e o).palram.read a = s.palram.read a :=
    fun a heven hodd => (Memory.read_write_ne _ hodd o).trans (Memory.read_write_ne _ heven e)
  rw [State.rgb, hread _ (by omega) (by omega), hread _ (by omega) (by omega)]
  rfl

/-- Writing the pair of an entry gives that entry the pair's colour and leaves every other colour (R141, R233). -/
theorem cwPalram_pair_colours {s : State} (h : s.palram.wf) (i : Nat) (e o : Byte) :
    ∃ t u, exec (.cwPalram (2 * i) e) s = .next t ∧ exec (.cwPalram (2 * i + 1) o) t = .next u ∧
      u.rgb i = rgbOf s.cfg.palWeight e o ∧ ∀ j, j ≠ i → u.rgb j = s.rgb j := by
  obtain ⟨t, hfirst, hsecond⟩ := exec_cwPalram_pair s i e o
  exact ⟨t, _, hfirst, hsecond, rgb_withPalPair_same h i e o, fun _ hj => rgb_withPalPair_ne s hj e o⟩

end Sys2Proof.Machine
end

section
/-! CERTIFICATE. The statements of spec/40_bus_registers.md, settled. -/

namespace Sys2Proof.Proofs.BusRegisters

open Sys2Proof.Machine

/-- Settles O8, by the rules of a write to character RAM. -/
theorem cwCramStoresAndMarks : Obligations.CwCramStoresAndMarks :=
  fun s off v _ hwf => ⟨(s.storeCram off v).quiet, rfl, read_storeCram_same hwf off v,
    fun _ ha => read_storeCram_ne s ha v, fun b _ hi => tileIsDirty_storeCram s off v b hi,
    fun b _ hi => spatIsDirty_storeCram s off v b hi, congrArg State.quiet (storeCram_frame s off v)⟩

/-- Settles O9, by the rules of a write to video RAM. -/
theorem cwVramStoresAndMarks : Obligations.CwVramStoresAndMarks :=
  fun s n off v hoff hwf => ⟨(s.storeVram n off v).quiet, exec_vramWrite n off v s, read_storeVram_same hwf off v,
    fun _ _ ha => read_storeVram_ne s ha v, fun m _ hc => cellIsDirty_storeVram s n hoff v m hc,
    congrArg State.quiet (storeVram_frame s n off v)⟩

/-- Settles O16: the same byte leaves the state, another is stored and marks every cell. -/
theorem cwColorbankMarksAllCells : Obligations.CwColorbankMarksAllCells := by
  intro s off v hoff
  by_cases h : regGet s.colorbank off = v
  · exact ⟨s.quiet, exec_cwColorbank_of_eq h, h, fun _ _ => rfl, fun _ _ _ => mark_of_same h _, rfl⟩
  · exact ⟨_, exec_cwColorbank_of_ne h, regGet_regSet_same _ hoff v, fun _ hi => regGet_regSet_ne _ hi v,
      fun n c _ => (cellIsDirty_markAllCells s.quiet n c).trans (mark_of_changed h _), rfl⟩

/-- Settles O17: the same byte leaves the state, another is stored and marks every cell. -/
theorem cwVidenMarksAllCells : Obligations.CwVidenMarksAllCells := by
  intro s v
  by_cases h : s.viden = v
  · exact ⟨s.quiet, exec_cwViden_of_eq h, fun _ _ _ => mark_of_same h _, by rw [← h]; rfl⟩
  · exact ⟨_, exec_cwViden_of_ne h,
      fun n c _ => (cellIsDirty_markAllCells s.quiet n c).trans (mark_of_changed h _), rfl⟩

/-- Settles O19: the carry of the low byte makes the increment one of the 16-bit value. -/
theorem crGfxromReadsAndIncrements : Obligations.CrGfxromReadsAndIncrements :=
  fun s => ⟨_, rfl, rfl, gfxptrNext_toNat s.gfxptr, rfl⟩

/-- Settles O45: FRAME is allowed or refused alike, and reads palette RAM for the colours alone. -/
theorem paletteReachesOnlyColours : Obligations.PaletteReachesOnlyColours := by
  intro s t m h
  obtain ⟨hallowed, rfl⟩ := exec_frame_eq_next.1 h
  exact ⟨_, _, congrArg Outputs.frame (rendered_out s), scanOut_with_palram s.prepared m s.prepared.spriteScan,
    exec_frame_eq_next.2 ⟨hallowed, (rendered_with_palram s m).symm⟩⟩

/-- Settles O46: the inverted bits of the pair select all the weights or none. -/
theorem paletteBoundaryColours : Obligations.PaletteBoundaryColours := by
  intro s i _ hwf hsum
  have hwhite : rgbOf s.cfg.palWeight 0x00 0x00 = ⟨255, 255, 255⟩ := by rw [rgbOf_zero, hsum]
  exact ⟨hwhite ▸ cwPalram_pair_colours hwf i 0x00 0x00,
    rgbOf_ones s.cfg.palWeight ▸ cwPalram_pair_colours hwf i 0xFF 0xFF⟩

/-- Settles O10. -/
theorem crVramReturnsStored : Obligations.CrVramReturnsStored :=
  fun s n off _ => exec_vramRead n off s

/-- Settles O11: each of the three is one write of its memory. -/
theorem plainRamStores : Obligations.PlainRamStores := by
  intro s off v
  have other (m : Memory) : ∀ a, a ≠ off → (m.write off v).read a = m.read a := fun _ ha => Memory.read_write_ne m ha v
  exact ⟨fun _ hwf => ⟨_, rfl, Memory.read_write_same hwf off v, other s.colscroll, rfl⟩,
    fun _ hwf => ⟨_, rfl, Memory.read_write_same hwf off v, other s.spram, rfl⟩,
    fun _ hwf => ⟨_, rfl, Memory.read_write_same hwf off v, other s.palram, rfl⟩⟩

/-- Settles O12: each of the three answers the byte and keeps the state. -/
theorem plainReadsReturnStored : Obligations.PlainReadsReturnStored :=
  fun _ _ => ⟨fun _ => rfl, fun _ => rfl, fun _ => rfl⟩

/-- Settles O14: the fields read the byte just written. -/
theorem singleRegistersTakeTheByte : Obligations.SingleRegistersTakeTheByte := by
  intro s v
  have hcode : v.toNat % 32 = (v &&& 0x1F).toNat := (toNat_and_0x1F v).symm
  exact ⟨⟨_, rfl, rfl, hcode, congrArg s.draworder.get hcode⟩, ⟨_, rfl, rfl, getLsbD_seven_eq v⟩⟩

/-- Settles O15: each of the two is one write of its register array. -/
theorem registerArraysStore : Obligations.RegisterArraysStore :=
  fun s _ v => ⟨
    fun hoff => ⟨_, rfl, regGet_regSet_same s.scroll hoff v, fun _ hi => regGet_regSet_ne _ hi v, rfl⟩,
    fun hoff => ⟨_, rfl, regGet_regSet_same s.gfxptr hoff v, fun _ hi => regGet_regSet_ne _ hi v, rfl⟩⟩

/-- Settles O18. -/
theorem cwCollclrClears : Obligations.CwCollclrClears :=
  fun _ _ => ⟨_, rfl, fun i _ => regGet_replicate 4 i, rfl⟩

end Sys2Proof.Proofs.BusRegisters
end

section
/-! SUPPORT. What FRAME leaves in the caches, the dirty bits and the planes (spec/41_tilecache.md R170 to R176;
spec/42_playfield.md R190, R191), and what the other transactions leave of what a plane's cells are drawn from (R198). -/

namespace Sys2Proof.Machine

/-! ### The decode -/

/-- A pen under R5's plane weights and bit order: the third plane of the bank carries its highest bit (R5, R171). -/
theorem unpackPen_toNat {cfg : Config} (hweight : cfg.planeWeight = ⟨0, 1, 2⟩) (horder : cfg.rowBitOrder = .msbFirst)
    (cram : Memory) (base x : Nat) :
    (unpackPen cfg cram base x).toNat =
      4 * ((cram.read (base + 0x1000)).getLsbD (7 - x)).toNat + 2 * ((cram.read (base + 0x0800)).getLsbD (7 - x)).toNat
        + ((cram.read base).getLsbD (7 - x)).toNat := by
  have hplane2 : Config.planeStride * (2 : Fin 3).val = 0x1000 := rfl
  have hplane1 : Config.planeStride * (1 : Fin 3).val = 0x0800 := rfl
  have hplane0 : Config.planeStride * (0 : Fin 3).val = 0 := rfl
  simp only [unpackPen, hweight, horder, rowBit, toNat_append_eq_add, BitVec.toNat_ofBool, hplane2, hplane1, hplane0,
    Nat.add_zero]
  omega

/-! ### The dirty bits after FRAME -/

theorem tileIsDirty_rendered (s : State) (b : Bank) (t : Nat) : s.rendered.tileIsDirty b t = false :=
  tileIsDirty_decodeDirty s b t

theorem spatIsDirty_rendered (s : State) (b : Bank) (p : Nat) : s.rendered.spatIsDirty b p = false :=
  spatIsDirty_decodeDirty s b p

theorem cellIsDirty_rendered (s : State) (n : Plane) (c : Nat) : s.rendered.cellIsDirty n c = false :=
  cellIsDirty_redrawCells s.decodeDirty n c

/-! ### The cells after FRAME -/

/-- FRAME redraws cell c of plane n: the cell is dirty, or `TILE_PROPAGATE` marks it because its tile is re-decoded under
the plane's bank (R176, R190). -/
def State.cellRedrawn (s : State) (n : Plane) (c : Nat) : Bool :=
  s.cellIsDirty n c || (s.cfg.tilePropagate && s.tileIsDirty (s.pbank n) ((s.vram.get n).read c).toNat)

/-- The pixels at the place of a cell after FRAME: those of the cell from the decoded cache if it is redrawn, else the
pixels there before (R190, R191). -/
theorem px_rendered_place (s : State) (n : Plane) {c j i : Nat} (hc : c < 1024) (hj : j < 8) (hi : i < 8) :
    (s.rendered.pf.get n).px (8 * mirrored s.gfx 31 (c % 32) + i) (8 * mirrored s.gfy 31 (c / 32) + j) =
      if s.cellRedrawn n c then s.rendered.cellPixel n c j i
      else (s.pf.get n).px (8 * mirrored s.gfx 31 (c % 32) + i) (8 * mirrored s.gfy 31 (c / 32) + j) := by
  have hx := place_lt s.gfx (c % 32) (by omega) hi
  have hy := place_lt s.gfy (c / 32) (by omega) hj
  have hcell : s.decodeDirty.cellAt (8 * mirrored s.gfx 31 (c % 32) + i) (8 * mirrored s.gfy 31 (c / 32) + j) = c :=
    cellAt_place s.decodeDirty hc hi hj
  have hrow : (8 * mirrored s.gfy 31 (c / 32) + j) % 8 = j := by omega
  have hcol : (8 * mirrored s.gfx 31 (c % 32) + i) % 8 = i := by omega
  have hdraw := px_redrawCells s.decodeDirty n hx hy
  rw [hcell, hrow, hcol, cellIsDirty_decodeDirty s n hc] at hdraw
  exact hdraw

/-- What a plane stores for a pen: 0 for pen 0, else `8 * colour + pen` (R191). -/
theorem planeIndex_eq_ofNat (s : State) (n : Plane) (pen : Pen) :
    s.planeIndex n pen = if pen = 0 then 0 else BitVec.ofNat 6 (8 * (s.pcol n).toNat + pen.toNat) := by
  rw [State.planeIndex, ← palIdx_toNat, BitVec.ofNat_toNat, BitVec.setWidth_eq]

/-- FRAME leaves the tiles it does not decode (R170). -/
theorem rendered_tilePen_of_clean {s : State} {b : Bank} {t r x : Nat} (h : s.tileIsDirty b t = false) (ht : t < 256)
    (hr : r < 8) (hx : x < 8) : s.rendered.tilePen b t r x = s.tilePen b t r x := by
  rw [rendered_tilePen, tilePen_decodeDirty s b ht hr hx, h, if_neg Bool.false_ne_true]

theorem mirrored_lt (g : Bool) {k : Nat} (h : k < 8) : mirrored g 7 k < 8 := by
  unfold mirrored; split <;> omega

/-- A cell whose tile FRAME does not decode has the pixels it had (R191). -/
theorem rendered_cellPixel_of_clean {s : State} {n : Plane} {c j i : Nat}
    (h : s.tileIsDirty (s.pbank n) ((s.vram.get n).read c).toNat = false) (hj : j < 8) (hi : i < 8) :
    s.rendered.cellPixel n c j i = s.cellPixel n c j i := by
  exact congrArg (s.planeIndex n)
    (rendered_tilePen_of_clean h (BitVec.isLt _) (mirrored_lt s.gfy hj) (mirrored_lt s.gfx hi))

/-- FRAME leaves a cell current that was dirty, or that was current under `TILE_PROPAGATE` (R176, R198). -/
theorem cellCurrent_rendered {s : State} {n : Plane} {c : Nat} (hc : c < 1024)
    (h : s.cellIsDirty n c = true ∨ s.cfg.tilePropagate = true ∧ s.CellCurrent n c) : s.rendered.CellCurrent n c := by
  intro j i hj hi
  refine (px_rendered_place s n hc hj hi).trans ?_
  split
  next => rfl
  next hkept =>
    simp only [State.cellRedrawn, Bool.or_eq_true, not_or, Bool.not_eq_true] at hkept
    obtain ⟨hclean, htile⟩ := hkept
    obtain hdirty | ⟨hpropagate, hcurrent⟩ := h
    · exact absurd (hclean.symm.trans hdirty) Bool.false_ne_true
    · rw [hpropagate, Bool.true_and] at htile
      rw [rendered_cellPixel_of_clean htile hj hi]
      exact hcurrent j i hj hi

/-! ### The registers the cells are drawn under -/

/-- The registers a redraw of a cell reads: the colour banks and the flips (R191). -/
def State.cellControl (s : State) : Vector Byte 2 × Byte := (s.colorbank, s.viden)

/-- A cell is current if its plane's bitmap, the tiles, its code and the registers are those of a state in which it is
current (R198). -/
theorem State.CellCurrent.congr {s t : State} {n : Plane} {c : Nat} (h : s.CellCurrent n c) (hpf : t.pf = s.pf)
    (htiles : t.tilePix = s.tilePix) (hcode : (t.vram.get n).read c = (s.vram.get n).read c)
    (hcontrol : t.cellControl = s.cellControl) : t.CellCurrent n c := by
  obtain ⟨hbank, hviden⟩ := Prod.mk.inj hcontrol
  have hgfx : t.gfx = s.gfx := congrArg (·.getLsbD 0) hviden
  have hgfy : t.gfy = s.gfy := congrArg (·.getLsbD 1) hviden
  have hpcol : t.pcol n = s.pcol n := by cases n <;> simp only [State.pcol, hbank]
  have hpbank : t.pbank n = s.pbank n := by cases n <;> simp only [State.pbank, hbank]
  intro j i hj hi
  simp only [State.cellPixel, State.planeIndex, State.tilePen, hpf, hgfx, hgfy, htiles, hcode, hpcol, hpbank]
  exact h j i hj hi

theorem drain_cellControl (s : State) : s.drain.cellControl = s.cellControl := by
  rw [drain_frame]; rfl

theorem portDrawn_cellControl (s : State) : s.portDrawn.cellControl = s.cellControl := by
  unfold State.portDrawn; split <;> rfl

theorem portBits_cellControl (v : Byte) (ks : List Nat) (s : State) :
    (ks.foldl (portBit v) s).cellControl = s.cellControl := by
  rw [portBits_frame]; rfl

theorem storeCram_cellControl (s : State) (off : Nat) (v : Byte) :
    (s.storeCram off v).quiet.cellControl = s.cellControl := by
  rw [storeCram_frame]; rfl

theorem storeVram_cellControl (s : State) (n : Plane) (off : Nat) (v : Byte) :
    (s.storeVram n off v).quiet.cellControl = s.cellControl := by
  rw [storeVram_frame]; rfl

theorem ite_cellControl {c : Prop} [Decidable c] {s a b : State} (ha : a.cellControl = s.cellControl)
    (hb : b.cellControl = s.cellControl) : (if c then a else b).cellControl = s.cellControl := by
  split
  · exact ha
  · exact hb

/-- A transaction that changes a colour bank or a flip leaves every cell dirty (R144, R153, R370). -/
theorem cellControl_of_exec {i : Instr} {s t : State} (h : exec i s = .next t) :
    t.cellControl = s.cellControl ∨ ∀ n c, t.cellIsDirty n c = true := by
  have kept {u : State} (ht : u = t) (hu : u.cellControl = s.cellControl) :
      t.cellControl = s.cellControl ∨ ∀ n c, t.cellIsDirty n c = true := .inl (ht ▸ hu)
  cases i with
  | cwColorbank off v =>
    by_cases hv : regGet s.colorbank off = v
    · exact kept (Host.Outcome.next.inj ((exec_cwColorbank_of_eq hv).symm.trans h)) rfl
    · obtain rfl := Host.Outcome.next.inj ((exec_cwColorbank_of_ne hv).symm.trans h)
      exact .inr (cellIsDirty_markAllCells s)
  | cwViden v =>
    by_cases hv : s.viden = v
    · exact kept (Host.Outcome.next.inj ((exec_cwViden_of_eq hv).symm.trans h)) rfl
    · obtain rfl := Host.Outcome.next.inj ((exec_cwViden_of_ne hv).symm.trans h)
      exact .inr (cellIsDirty_markAllCells s)
  | reset =>
    obtain rfl := Host.Outcome.next.inj h
    exact .inr (cellIsDirty_recreate s)
  | frame => exact kept (exec_frame_eq_next.1 h).2.symm rfl
  | cwCram off v => exact kept (Host.Outcome.next.inj h) (storeCram_cellControl s off v)
  | cwVram0 off v => exact kept (Host.Outcome.next.inj h) (storeVram_cellControl s .front off v)
  | cwVram1 off v => exact kept (Host.Outcome.next.inj h) (storeVram_cellControl s .middle off v)
  | cwVram2 off v => exact kept (Host.Outcome.next.inj h) (storeVram_cellControl s .back off v)
  | sync => exact kept (Host.Outcome.next.inj h) (drain_cellControl s)
  | cwMcudata | crMcudata => exact kept (Host.Outcome.next.inj h) (ite_cellControl rfl rfl)
  | crMcustatus =>
    have hsynced : (if s.cfg.statusReadSyncs then s.drain else s).cellControl = s.cellControl :=
      ite_cellControl (drain_cellControl s) rfl
    exact kept (Host.Outcome.next.inj h) (ite_cellControl hsynced rfl)
  | mwPortb v => exact kept (inVariant_eq_next.1 h).2.symm (portBits_cellControl v portBits s.quiet)
  | crAlpinein => exact kept (inVariant_eq_next.1 h).2.symm (portDrawn_cellControl s)
  | mrPorta | mwPorta | mrPortb | mrPortc | cwAlpinecode => exact kept (inVariant_eq_next.1 h).2.symm rfl
  | cwColscroll | cwSpram | cwPalram | crVram0 | crVram1 | crVram2 | crColscroll | crSpram | cwPriority | cwScroll
  | crColl | cwCollclr | cwGfxptr | crGfxrom | cwBanksw => exact kept (Host.Outcome.next.inj h) rfl

/-! ### The planes, transaction by transaction -/

/-- A cell that is clean after a transaction other than FRAME has kept its bitmap, the tiles and its code: a write that
changes the code marks the cell (R131, R198). -/
theorem Effect.kept_of_clean {s t : State} {i : Instr} (h : Effect s i t) (hw : WellFormed i = true) (hframe : i ≠ .frame)
    {n : Plane} {c : Nat} (hc : c < 1024) (hclean : t.cellIsDirty n c = false) :
    t.pf = s.pf ∧ t.tilePix = s.tilePix ∧ (t.vram.get n).read c = (s.vram.get n).read c := by
  cases h with
  | vram m off v =>
    have hmark : (s.cellIsDirty n c || (n == m && c == off)) = false :=
      (cellIsDirty_markCell s m (wellFormed_vramWrite hw) n hc).symm.trans hclean
    simp only [Bool.or_eq_false_iff, Bool.and_eq_false_iff, beq_eq_false_iff_ne] at hmark
    refine ⟨rfl, rfl, ?_⟩
    rw [State.quiet_vram, PerPlane.get_set]
    split
    next hn => subst hn; exact Memory.read_write_ne _ (hmark.2.resolve_left (absurd rfl)) v
    next => rfl
  | frame => exact absurd rfl hframe
  | reset => exact absurd (hclean.symm.trans (cellIsDirty_recreate s n c)) Bool.false_ne_true
  | cram | colscroll | spram | palram | collclr | other => exact ⟨rfl, rfl, rfl⟩

/-- Every transaction but FRAME keeps the planes current: a cell that stays clean keeps its pixels and all that a redraw of
it would read (R198). -/
theorem planesCurrent_of_exec {i : Instr} {s t : State} (h : exec i s = .next t) (hw : WellFormed i = true)
    (hframe : i ≠ .frame) (hs : s.PlanesCurrent) : t.PlanesCurrent := by
  intro n c hc hclean
  have hold : s.cellIsDirty n c = false := by
    by_contra hdirty
    exact Bool.false_ne_true
      (hclean.symm.trans ((cellMarks_of_exec h hframe).mono (Bool.eq_true_of_not_eq_false hdirty)))
  obtain ⟨hpf, htiles, hcode⟩ := (effect_of_exec h).kept_of_clean hw hframe hc hclean
  obtain hcontrol | hall := cellControl_of_exec h
  · exact (hs n c hc hold).congr hpf htiles hcode hcontrol
  · exact absurd (hclean.symm.trans (hall n c)) Bool.false_ne_true

/-- FRAME makes the planes current under `TILE_PROPAGATE` (R176, R198). -/
theorem planesCurrent_rendered {s : State} (hpropagate : s.cfg.tilePropagate = true) (hs : s.PlanesCurrent) :
    s.rendered.PlanesCurrent := by
  intro n c hc _
  refine cellCurrent_rendered hc ?_
  cases hdirty : s.cellIsDirty n c with
  | true => exact .inl rfl
  | false => exact .inr ⟨hpropagate, hs n c hc hdirty⟩

/-- The fetch changes nothing the planes are judged by. -/
theorem planesCurrent_issued {s : State} (hs : s.PlanesCurrent) (i : Instr) (rest : List TraceWord) :
    (s.issued i rest).PlanesCurrent := by
  rw [issued_eq]
  split
  · exact hs
  · exact hs

end Sys2Proof.Machine
end

section
/-! CERTIFICATE. The statements of spec/41_tilecache.md, settled. -/

namespace Sys2Proof.Proofs.TileCache

open Sys2Proof.Machine

/-- Settles O57: FRAME redraws what is dirty and, under `TILE_PROPAGATE`, whatever shows a re-decoded tile; every other
transaction marks each cell whose redraw it changes. -/
theorem stepKeepsPlanesCurrent : Obligations.StepKeepsPlanesCurrent := by
  intro s t hpropagate hs h
  obtain ⟨w, rest, i, -, hd, he⟩ := step_eq_next h
  have hissued := planesCurrent_issued hs i rest
  by_cases hframe : i = .frame
  · subst hframe
    obtain ⟨-, rfl⟩ := exec_frame_eq_next.1 he
    exact planesCurrent_rendered hpropagate hissued
  · exact planesCurrent_of_exec he (wellFormed_of_decode hd) hframe hissued

/-- Settles O33: the decode clears the bits of the caches, the redraw those of the cells. -/
theorem frameCompletes : Obligations.FrameCompletes :=
  fun s h => ⟨s.rendered, exec_frame_eq_next.2 ⟨h, rfl⟩,
    fun b i => ⟨tileIsDirty_rendered s b i, spatIsDirty_rendered s b i⟩, cellIsDirty_rendered s,
    fun _ _ _ => rendered_coll_mono, rendered_frame s⟩

/-- Settles O35: FRAME leaves the caches as its decode step does, and the unpack is arithmetic on the three planes' bits. -/
theorem frameDecodesDirty : Obligations.FrameDecodesDirty := by
  intro s t h hweight horder pen
  obtain ⟨-, rfl⟩ := exec_frame_eq_next.1 h
  refine ⟨fun b i r x hi hr hx => ?_, fun b i r x hi hr hx => ?_⟩
  · rw [rendered_tilePen, tilePen_decodeDirty s b hi hr hx, apply_ite BitVec.toNat, unpackTile,
      unpackPen_toNat hweight horder]
    rfl
  · rw [rendered_spatPen, spatPen_decodeDirty s b hi hr hx, apply_ite BitVec.toNat, unpackSpat,
      unpackPen_toNat hweight horder]
    rfl

/-- Settles O36: the pixels at the place of a cell, with the stored index as arithmetic on colour and pen. -/
theorem frameRedrawsDirtyCells : Obligations.FrameRedrawsDirtyCells := by
  intro s t h n c j i hc hj hi col row tile pen
  obtain ⟨-, rfl⟩ := exec_frame_eq_next.1 h
  have hpixel : s.rendered.cellPixel n c j i =
      if pen = 0 then 0 else BitVec.ofNat 6 (8 * (s.pcol n).toNat + pen.toNat) := planeIndex_eq_ofNat s n pen
  rw [← hpixel]
  exact px_rendered_place s n hc hj hi

end Sys2Proof.Proofs.TileCache
end

section
/-! SUPPORT. The scroll as arithmetic on the scroll bytes (spec/42_playfield.md R193, R194), and the picture, the colours
and the scratch buffers that FRAME leaves (R195, R197; spec/44_compositor.md R233 to R237). -/

namespace Sys2Proof.Machine

/-! ### The scroll -/

/-- A byte without its three lowest bits (R193). -/
theorem toNat_and_0xF8 (b : Byte) : (b &&& 0xF8#8).toNat = 8 * (b.toNat / 8) := by
  have hfield : b &&& 0xF8#8 = b.extractLsb' 3 5 ++ 0#3 := by
    refine BitVec.eq_of_getLsbD_eq fun k hk => ?_
    rw [BitVec.getLsbD_and, BitVec.getLsbD_append, BitVec.getLsbD_extractLsb']
    interval_cases k <;> simp
  have hb := b.isLt
  rw [hfield, toNat_append_eq_add, toNat_byteField, BitVec.toNat_zero]
  omega

/-- `H[n]`: the coarse scroll in steps of 8 pixels, to the left unless `GFX`, the fine scroll and the plane's constant
(R193). -/
theorem scrollH_eq (s : State) (n : Plane) :
    s.scrollH n =
      (if s.gfx then 8 * (((s.scrollX n).toNat : Int) / 8) else -(8 * (((s.scrollX n).toNat : Int) / 8)))
        + (((s.scrollX n).toNat : Int) + s.cfg.scrollF1.get n) % 8 + s.cfg.scrollF2.get n := by
  rw [State.scrollH, toNat_and_0xF8, Int.natCast_mul, Int.natCast_ediv]
  rfl

theorem scrollV_of_gfy {s : State} (h : s.gfy = true) (n : Plane) (c : Nat) :
    s.scrollV n c = (s.columnOffset n (31 - c)).toNat + (s.scrollY n).toNat := by
  rw [State.scrollV, if_pos h]

theorem scrollV_of_not_gfy {s : State} (h : ¬s.gfy = true) (n : Plane) (c : Nat) :
    s.scrollV n c = -((s.columnOffset n c).toNat : Int) - (s.scrollY n).toNat := by
  rw [State.scrollV, if_neg h]

/-- A column moves by the sum of two bytes, up or down (R194). -/
theorem scrollV_bounds (s : State) (n : Plane) (c : Nat) : -510 ≤ s.scrollV n c ∧ s.scrollV n c ≤ 510 := by
  have hdown := (s.scrollY n).isLt
  by_cases hflip : s.gfy = true
  · have hcolumn := (s.columnOffset n (31 - c)).isLt
    rw [scrollV_of_gfy hflip]
    omega
  · have hcolumn := (s.columnOffset n c).isLt
    rw [scrollV_of_not_gfy hflip]
    omega

/-- R5's constants `SCROLL_F2` lie between 8 and 12; the coarse scroll adds at most 248 on either side and the fine scroll
at most 7 (R193). -/
theorem scrollH_bounds {s : State} {n : Plane} (hlow : 8 ≤ s.cfg.scrollF2.get n) (hhigh : s.cfg.scrollF2.get n ≤ 12) :
    -240 ≤ s.scrollH n ∧ s.scrollH n ≤ 267 := by
  have hacross := (s.scrollX n).isLt
  rw [scrollH_eq]
  split <;> omega

/-! ### The picture -/

/-- Layers drawn in turn leave the pixel of the last-drawn enabled opaque one, or what was there (R237). -/
theorem foldl_drawLayerAt (s : State) (x y : Nat) (ls : List Layer) (old : Option PalIdx) :
    ls.foldl (s.drawLayerAt s.spriteScan x y) old = (ls.reverse.findSome? (s.layerOpaque x y)).or old := by
  rw [← foldl_or_eq]
  congr 1
  funext o l
  exact drawLayerAt_eq s x y o l

/-- The pixels of the composite: the picture inside `VISIBLE`, none outside it (R236, R237). -/
theorem px_composite (s : State) {x y : Nat} (hx : x < 256) (hy : y < 256) :
    (s.composite s.spriteScan).surface.px x y =
      if Rect.holds s.cfg.visible x y then some (s.picture x y) else none := by
  have hfill : s.filled.surface.px x y = if Rect.holds s.cfg.visible x y then some s.background else none := by
    rw [State.filled, Tab.px_bitmap _ hx hy]
  rw [State.composite, px_foldl_drawLayer _ _ _ _ hx hy, hfill]
  split
  next => rw [foldl_drawLayerAt, State.picture, Option.or_some]
  next => rfl

theorem Rect.holds_iff {r : Rect} {x y : Nat} :
    Rect.holds r x y = true ↔ r.xFirst ≤ x ∧ x ≤ r.xLast ∧ r.yFirst ≤ y ∧ y ≤ r.yLast := by
  simp only [Rect.holds, Bool.and_eq_true, decide_eq_true_eq, and_assoc]

theorem background_toNat (s : State) : s.background.toNat = 8 * (s.pcol .back).toNat :=
  palIdx_toNat _ 0

/-! ### The colours -/

/-- The inverse of bit k of a byte, as a number (R233). -/
def invertedBit (d : Byte) (k : Nat) : Nat := if d.getLsbD k then 0 else 1

/-- A weight counts towards a gun if its bit is 0 (R233). -/
theorem ite_getLsbD_not (w : Nat) (d : Byte) {k : Nat} (hk : k < 8) :
    (if (~~~d).getLsbD k then w else 0) = w * invertedBit d k := by
  rw [BitVec.getLsbD_not, decide_eq_true hk, Bool.true_and, invertedBit]
  cases d.getLsbD k with
  | true => exact (Nat.mul_zero w).symm
  | false => exact (Nat.mul_one w).symm

/-- A gun on the inverse of three bits (R233). -/
theorem gun_not (w : PalWeight) (d0 d1 d2 : Byte) {k0 k1 k2 : Nat} (h0 : k0 < 8) (h1 : k1 < 8) (h2 : k2 < 8) :
    gun w ((~~~d0).getLsbD k0) ((~~~d1).getLsbD k1) ((~~~d2).getLsbD k2) =
      w.w0 * invertedBit d0 k0 + w.w1 * invertedBit d1 k1 + w.w2 * invertedBit d2 k2 := by
  rw [gun, ite_getLsbD_not _ _ h0, ite_getLsbD_not _ _ h1, ite_getLsbD_not _ _ h2]

/-- The colour of a palette pair: each gun sums the weights whose bits of the pair are 0 (R233). -/
theorem rgbOf_eq (w : PalWeight) (e o : Byte) :
    rgbOf w e o =
      ⟨w.w0 * invertedBit o 6 + w.w1 * invertedBit o 7 + w.w2 * invertedBit e 0,
        w.w0 * invertedBit o 3 + w.w1 * invertedBit o 4 + w.w2 * invertedBit o 5,
        w.w0 * invertedBit o 0 + w.w1 * invertedBit o 1 + w.w2 * invertedBit o 2⟩ := by
  have hred := gun_not w o o e (k0 := 6) (k1 := 7) (k2 := 0) (by decide) (by decide) (by decide)
  have hgreen := gun_not w o o o (k0 := 3) (k1 := 4) (k2 := 5) (by decide) (by decide) (by decide)
  have hblue := gun_not w o o o (k0 := 0) (k1 := 1) (k2 := 2) (by decide) (by decide) (by decide)
  rw [rgbOf, hred, hgreen, hblue]

/-! ### What FRAME puts out and leaves -/

/-- The scratch buffers of the composite: the scrolled plane inside the boxes of the active sprites if the plane is enabled
and named by the draw order in use, else the old content (R195, R197). -/
theorem px_composite_pscr (s : State) (n : Plane) {x y : Nat} (hx : x < 256) (hy : y < 256) :
    ((s.composite s.spriteScan).pscr.get n).px x y =
      if s.pen n = true ∧ n.layer ∈ s.drawRow.layers ∧ inSomeBox s.spriteScan x y = true then s.planePixel n x y
      else (s.pscr.get n).px x y := by
  rw [State.composite, pscr_foldl_drawLayer]
  by_cases hdrawn : s.pen n = true ∧ n.layer ∈ s.drawRow.layers
  · rw [if_pos hdrawn, px_scratchCopy _ _ _ _ hx hy]
    simp only [hdrawn, true_and]
    rfl
  · rw [if_neg hdrawn, if_neg fun h => hdrawn ⟨h.1, h.2.1⟩]
    rfl

/-- FRAME leaves what it composes the surface from, so the surface is the picture of the rendered state (R235, R240). -/
theorem px_rendered_surface (s : State) {x y : Nat} (hx : x < 256) (hy : y < 256) :
    (s.prepared.scanOut s.prepared.spriteScan).surface.px x y =
      if Rect.holds s.rendered.cfg.visible x y then some (s.rendered.picture x y) else none :=
  px_composite s.prepared hx hy

/-- FRAME puts out the colours of the palette RAM it leaves (R233, R235). -/
theorem get_rendered_colours (s : State) {i : Nat} (hi : i < 64) :
    (s.prepared.scanOut s.prepared.spriteScan).colours.get i = s.rendered.rgb i :=
  Tab.get_tabulate _ hi

/-- A scratch buffer after FRAME, by the enables, the draw order and the sprites of the rendered state (R195, R197). -/
theorem px_rendered_pscr (s : State) (n : Plane) {x y : Nat} (hx : x < 256) (hy : y < 256) :
    (s.rendered.pscr.get n).px x y =
      if s.rendered.pen n = true ∧ n.layer ∈ s.rendered.drawRow.layers ∧ inSomeBox s.rendered.spriteScan x y = true
      then s.rendered.planePixel n x y else (s.pscr.get n).px x y :=
  px_composite_pscr s.prepared n hx hy

end Sys2Proof.Machine
end

section
/-! CERTIFICATE. The statements of spec/42_playfield.md, settled. -/

namespace Sys2Proof.Proofs.Playfield

open Sys2Proof.Machine

/-- Settles O37: the composite's pixels are the picture of the rendered state, and each gun sums the weights of its
inverted bits. -/
theorem framePictureIsLastOpaqueLayer : Obligations.FramePictureIsLastOpaqueLayer := by
  intro s t h
  obtain ⟨-, rfl⟩ := exec_frame_eq_next.1 h
  refine ⟨s.prepared.scanOut s.prepared.spriteScan, rendered_out s, fun x y hx hy => ?_, background_toNat _,
    fun i hi => ⟨get_rendered_colours s hi, rgbOf_eq _ _ _⟩⟩
  rw [px_rendered_surface s hx hy]
  simp only [Rect.holds_iff]

/-- Settles O38: the boxes of the copy are those of the active slots, and FRAME leaves what the copy is made from. -/
theorem frameScratchCopy : Obligations.FrameScratchCopy := by
  intro s t h n x y hx hy
  obtain ⟨-, rfl⟩ := exec_frame_eq_next.1 h
  rw [px_rendered_pscr s n hx hy, ← inSomeBox_scan]
  exact ⟨fun hcopied => if_pos hcopied, fun hkept => if_neg hkept⟩

/-- Settles O47: the offsets are arithmetic on the scroll bytes, and the bytes bound them. -/
theorem scrollRanges : Obligations.ScrollRanges := by
  intro s n across down column coarse
  refine ⟨scrollH_eq s n, fun i hi => ?_, fun x y => rfl, fun _ hF2 => ?_⟩
  · split
    next hflip =>
      have hback : 31 - (31 - i) = i := by omega
      rw [scrollV_of_gfy hflip, hback]
      rfl
    next hflip => exact scrollV_of_not_gfy hflip n i
  · have hconst : 8 ≤ s.cfg.scrollF2.get n ∧ s.cfg.scrollF2.get n ≤ 12 := by rw [hF2]; cases n <;> decide
    obtain ⟨hlow, hhigh⟩ := scrollH_bounds hconst.1 hconst.2
    exact ⟨hlow, hhigh, scrollV_bounds s n⟩

/-- Settles O58: a dirty cell is redrawn, and under `TILE_PROPAGATE` FRAME keeps the clean ones current. -/
theorem frameMakesPlanesCurrent : Obligations.FrameMakesPlanesCurrent := by
  intro s t h hs n c hc
  obtain ⟨-, rfl⟩ := exec_frame_eq_next.1 h
  obtain ⟨hpropagate, hcurrent⟩ | hdirty := hs
  · exact planesCurrent_rendered hpropagate hcurrent n c hc (cellIsDirty_rendered s n c)
  · exact cellCurrent_rendered hc (.inl (hdirty n c hc))

/-- Settles O59: the reset state is one RESET leaves, in which no cell is clean. -/
theorem resetHasPlanesCurrent : Obligations.ResetHasPlanesCurrent := by
  intro n c _ hclean
  have hdirty : State.reset.cellIsDirty n c = true := cellIsDirty_recreate State.reset n c
  exact absurd (hclean.symm.trans hdirty) Bool.false_ne_true

end Sys2Proof.Proofs.Playfield
end

section
/-! SUPPORT. The sprite scan with R5's functions: the activity test and the positions as arithmetic on the slot's bytes
(spec/43_sprites.md R210, R214). -/

namespace Sys2Proof.Machine

/-- A table over the values of a byte holds, at a byte, the value it was made from (R5). -/
theorem Tab.get_tabulate_byte {α : Type} (f : Nat → α) (b : Byte) : (Tab.tabulate 8 f).get b.toNat = f b.toNat :=
  Tab.get_tabulate f b.isLt

theorem inHole_eq_false_iff {i : Nat} : Config.inHole i = false ↔ ¬(0x10 ≤ i ∧ i ≤ 0x17) := by
  simp only [Config.inHole, Bool.and_eq_false_iff, decide_eq_false_iff_not, not_and_or]

theorem standardActive_iff {yr : Nat} : Config.standardActive yr = true ↔ yr < 240 := decide_eq_true_iff

/-- `UX` wraps at 256 before the 15 are taken off (R210). -/
theorem standardSx_bounds (xr : Nat) : -15 ≤ Config.standardSx xr ∧ Config.standardSx xr ≤ 240 := by
  have hwrap : (xr + 13) % 256 < 256 := Nat.mod_lt _ (by decide)
  rw [Config.standardSx]
  omega

/-- A y byte that passes the activity test puts the sprite at a row from 1 to 240 (R210). -/
theorem standardSy_bounds {yr : Nat} (h : yr < 240) : 1 ≤ Config.standardSy yr ∧ Config.standardSy yr ≤ 240 := by
  rw [Config.standardSy]
  omega

theorem slotOn_iff {s : State} (htest : s.cfg.activeTest = Tab.tabulate 8 Config.standardActive) {i : Nat} :
    s.slotOn i = true ↔ ¬(0x10 ≤ i ∧ i ≤ 0x17) ∧ (s.yr i).toNat < 240 := by
  rw [State.slotOn, htest, Tab.get_tabulate_byte, Bool.and_eq_true, Bool.not_eq_true', inHole_eq_false_iff,
    standardActive_iff]

theorem slotUx_eq {s : State} (hsx : s.cfg.sprSx = Tab.tabulate 8 Config.standardSx) (i : Nat) :
    s.slotUx i = Config.standardSx (s.xr i).toNat := by
  rw [State.slotUx, hsx, Tab.get_tabulate_byte]

theorem slotUy_eq {s : State} (hsy : s.cfg.sprSy = Tab.tabulate 8 Config.standardSy) (i : Nat) :
    s.slotUy i = Config.standardSy (s.yr i).toNat := by
  rw [State.slotUy, hsy, Tab.get_tabulate_byte]

theorem slotUx_bounds {s : State} (hsx : s.cfg.sprSx = Tab.tabulate 8 Config.standardSx) (i : Nat) :
    -15 ≤ s.slotUx i ∧ s.slotUx i ≤ 240 := by
  rw [slotUx_eq hsx]
  exact standardSx_bounds _

/-- The activity test bounds the row of an active slot (R210). -/
theorem slotUy_bounds {s : State} (htest : s.cfg.activeTest = Tab.tabulate 8 Config.standardActive)
    (hsy : s.cfg.sprSy = Tab.tabulate 8 Config.standardSy) {i : Nat} (hon : s.slotOn i = true) :
    1 ≤ s.slotUy i ∧ s.slotUy i ≤ 240 := by
  obtain ⟨-, hactive⟩ := (slotOn_iff htest).1 hon
  rw [slotUy_eq hsy]
  exact standardSy_bounds hactive

end Sys2Proof.Machine
end

section
/-! CERTIFICATE. The statements of spec/43_sprites.md, settled. -/

namespace Sys2Proof.Proofs.Sprites

open Sys2Proof.Machine

/-- Settles O48: R5's tables at the slot's bytes are R5's functions, and the drawn origin mirrors what they give. -/
theorem spriteScanPositions : Obligations.SpriteScanPositions := by
  intro s i hsx hsy htest hmirrorX hmirrorY
  obtain ⟨hleft, hright⟩ := slotUx_bounds hsx i
  have hbx : s.slotBx i = if s.viden.getLsbD 0 then 238 - s.slotUx i else s.slotUx i := by
    rw [State.slotBx, hmirrorX]; rfl
  have hby : s.slotBy i = if s.viden.getLsbD 1 then 242 - s.slotUy i else s.slotUy i := by
    rw [State.slotBy, hmirrorY]; rfl
  exact ⟨slotOn_iff htest, slotUx_eq hsx i, hleft, hright, slotUy_eq hsy i, slotUy_bounds htest hsy, hbx, hby⟩

end Sys2Proof.Proofs.Sprites
end

section
/-! SUPPORT. The PROM decode as arithmetic on the PROM's entries (spec/44_compositor.md R230). -/

namespace Sys2Proof.Machine

/-! ### Layers and their numbers -/

/-- A 2-bit code names the layer of its number (R11, R230). -/
theorem Layer.number_ofCode (code : BitVec 2) : (Layer.ofCode code).number = code.toNat := by
  revert code; decide

theorem Layer.number_lt (l : Layer) : l.number < 4 := by
  cases l <;> decide

theorem Layer.ofCode_number (l : Layer) : Layer.ofCode (BitVec.ofNat 2 l.number) = l := by
  cases l <;> rfl

theorem Layer.number_injective : Function.Injective Layer.number :=
  Function.LeftInverse.injective (g := fun k => Layer.ofCode (BitVec.ofNat 2 k)) Layer.ofCode_number

/-! ### The layer of a code and a mask -/

/-- The codes 16..31 are those with bit 4 (R230). -/
theorem testBit_four {c : Nat} (hc : c < 32) : c.testBit 4 = decide (16 ≤ c) := by
  rw [Nat.testBit_eq_decide_div_mod_eq, decide_eq_decide]
  omega

/-- The layer the PROM names is bits 3:2 of the entry for codes 16..31 and bits 1:0 for codes 0..15 (R230). -/
theorem promLayer_number (cfg : Config) {c : Nat} (hc : c < 32) (mask : BitVec 4) :
    (promLayer cfg c mask).number =
      (promEntry cfg (16 * (c % 16) + mask.toNat)).toNat / (if 16 ≤ c then 4 else 1) % 4 := by
  simp only [promLayer, Layer.number_ofCode, testBit_four hc, decide_eq_true_eq]
  split
  next =>
    rw [BitVec.extractLsb'_toNat, BitVec.toNat_ushiftRight, Nat.shiftRight_zero, Nat.shiftRight_eq_div_pow]
  next =>
    rw [BitVec.extractLsb'_toNat, Nat.shiftRight_zero, Nat.div_one]

/-- A code below 16 names the layer in bits 1:0 of its entry (R230). -/
theorem promLayer_eq_of_low {cfg : Config} {c : Nat} (hc : c < 16) {mask : BitVec 4} {l : Layer}
    (h : (promEntry cfg (16 * c + mask.toNat)).toNat % 4 = l.number) : promLayer cfg c mask = l := by
  refine Layer.number_injective ?_
  rw [promLayer_number cfg (by omega), Nat.mod_eq_of_lt hc, if_neg (by omega), Nat.div_one, h]

/-! ### Masks and rows -/

theorem maskWith_toNat (mask : BitVec 4) (l : Layer) : (maskWith mask l).toNat = mask.toNat ||| 2 ^ l.number := by
  rw [maskWith, BitVec.toNat_or, BitVec.toNat_twoPow, Nat.mod_eq_of_lt (Nat.pow_lt_pow_right (by decide) l.number_lt)]

/-- A row of the draw order is the resolution of its code (R230). -/
theorem get_promDecode (cfg : Config) {c : Nat} (hc : c < 32) : (promDecode cfg).get c = promRow cfg c :=
  Tab.get_tabulate _ hc

/-- A row is known from the layers its code names as the mask grows (R230). -/
theorem promRow_eq {cfg : Config} {c : Nat} {l3 l2 l1 l0 : Layer} (h3 : promLayer cfg c 0 = l3)
    (h2 : promLayer cfg c (maskWith 0 l3) = l2) (h1 : promLayer cfg c (maskWith (maskWith 0 l3) l2) = l1)
    (h0 : promLayer cfg c (maskWith (maskWith (maskWith 0 l3) l2) l1) = l0) :
    promRow cfg c = ⟨l0, l1, l2, l3⟩ := by
  subst h3 h2 h1 h0
  rfl

end Sys2Proof.Machine
end

section
/-! SUPPORT. A second FRAME with no event between, step by step (spec/44_compositor.md R240;
spec/45_collision.md R266). -/

namespace Sys2Proof.Machine

/-! ### Steps 1 to 3 with nothing dirty -/

theorem decodedTiles_of_clean {s : State} (htiles : ∀ b k, s.tileIsDirty b k = false) (b : Bank) :
    s.decodedTiles b = s.tilePix.get b :=
  Tab.ext_get fun i hi => by
    rw [State.decodedTiles, Tab.get_tabulate _ hi, htiles, if_neg Bool.false_ne_true]

theorem decodedSpats_of_clean {s : State} (hspats : ∀ b k, s.spatIsDirty b k = false) (b : Bank) :
    s.decodedSpats b = s.spatPix.get b :=
  Tab.ext_get fun i hi => by
    rw [State.decodedSpats, Tab.get_tabulate _ hi, hspats, if_neg Bool.false_ne_true]

/-- With every tile and pattern clean the decode step changes nothing (R170, R176). -/
theorem decodeDirty_of_clean {s : State} (htiles : ∀ b k, s.tileIsDirty b k = false)
    (hspats : ∀ b k, s.spatIsDirty b k = false) : s.decodeDirty = s := by
  have htilePix : s.decodeDirty.tilePix = s.tilePix := PerBank.ext_get fun b => by
    rw [State.decodeDirty_tilePix, PerBank.get_ofFn, decodedTiles_of_clean htiles]
  have hspatPix : s.decodeDirty.spatPix = s.spatPix := PerBank.ext_get fun b => by
    rw [State.decodeDirty_spatPix, PerBank.get_ofFn, decodedSpats_of_clean hspats]
  have htileDirty : s.decodeDirty.tileDirty = s.tileDirty := PerBank.ext_get fun b => Tab.ext_get fun k _ =>
    (tileIsDirty_decodeDirty s b k).trans (htiles b k).symm
  have hspatDirty : s.decodeDirty.spatDirty = s.spatDirty := PerBank.ext_get fun b => Tab.ext_get fun k _ =>
    (spatIsDirty_decodeDirty s b k).trans (hspats b k).symm
  have hcellDirty : s.decodeDirty.cellDirty = s.cellDirty := PerPlane.ext_get fun n => Tab.ext_get fun c hc =>
    (cellIsDirty_decodeDirty s n hc).trans (by rw [htiles, Bool.and_false, Bool.or_false]; rfl)
  calc s.decodeDirty
      = { s with
          tilePix := s.decodeDirty.tilePix
          spatPix := s.decodeDirty.spatPix
          tileDirty := s.decodeDirty.tileDirty
          spatDirty := s.decodeDirty.spatDirty
          cellDirty := s.decodeDirty.cellDirty } := rfl
    _ = s := by rw [htilePix, hspatPix, htileDirty, hspatDirty, hcellDirty]

/-- With every cell clean the redraw changes nothing (R190). -/
theorem redrawCells_of_clean {s : State} (hcells : ∀ n c, s.cellIsDirty n c = false) : s.redrawCells = s := by
  have hpf : s.redrawCells.pf = s.pf := PerPlane.ext_get fun n => Tab.ext_px fun x y hx hy => by
    rw [px_redrawCells s n hx hy, hcells, if_neg Bool.false_ne_true]
  have hcellDirty : s.redrawCells.cellDirty = s.cellDirty := PerPlane.ext_get fun n => Tab.ext_get fun c _ =>
    (cellIsDirty_redrawCells s n c).trans (hcells n c).symm
  calc s.redrawCells
      = { s with pf := s.redrawCells.pf, cellDirty := s.redrawCells.cellDirty } := rfl
    _ = s := by rw [hpf, hcellDirty]

/-- FRAME leaves nothing for steps 1 to 3 of a FRAME right after it (R170, R190). -/
theorem prepared_rendered (s : State) : s.rendered.prepared = s.rendered := by
  rw [State.prepared, decodeDirty_of_clean (tileIsDirty_rendered s) (spatIsDirty_rendered s),
    redrawCells_of_clean (cellIsDirty_rendered s)]

/-! ### Steps 4 to 6 a second time -/

/-- The composite draws the same surface whatever the scratch buffers held (R237). -/
theorem composite_surface_with_pscr (s : State) (scan : List Sprite) (buffers : PerPlane (Tab PalIdx 16)) :
    (({ s with pscr := buffers } : State).composite scan).surface = (s.composite scan).surface :=
  Tab.ext_px fun _ _ hx hy => by
    rw [State.composite, State.composite, px_foldl_drawLayer _ _ _ _ hx hy, px_foldl_drawLayer _ _ _ _ hx hy]
    rfl

/-- A scratch buffer after the composite: copied into exactly if its plane is enabled and named by the draw order in use
(R195, R197). -/
theorem get_composite_pscr (s : State) (scan : List Sprite) (n : Plane) :
    (s.composite scan).pscr.get n =
      if s.pen n = true ∧ n.layer ∈ s.drawRow.layers then s.scratchCopy scan n (s.pscr.get n) else s.pscr.get n :=
  pscr_foldl_drawLayer s scan s.drawRow.layers s.filled n

/-- The composite run again on the scratch buffers it left copies the same pixels into them (R197). -/
theorem composite_pscr_twice (s : State) (scan : List Sprite) :
    (({ s with pscr := (s.composite scan).pscr } : State).composite scan).pscr = (s.composite scan).pscr := by
  refine PerPlane.ext_get fun n => (get_composite_pscr _ scan n).trans ?_
  split
  next hdrawn =>
    have hcopied : (s.composite scan).pscr.get n = s.scratchCopy scan n (s.pscr.get n) :=
      (get_composite_pscr s scan n).trans (if_pos hdrawn)
    change s.scratchCopy scan n ((s.composite scan).pscr.get n) = _
    rw [hcopied, scratchCopy_twice]
  next => rfl

/-- The composite run again on the scratch buffers it left leaves the same canvas (R237). -/
theorem composite_twice (s : State) (scan : List Sprite) :
    ({ s with pscr := (s.composite scan).pscr } : State).composite scan = s.composite scan :=
  congrArg₂ Canvas.mk (composite_surface_with_pscr s scan _) (composite_pscr_twice s scan)

/-- Steps 5 and 6 run again on the registers they left set no further bit (R266). -/
theorem collide_twice (s : State) (scan : List Sprite) (pscr : PerPlane (Tab PalIdx 16)) (coll : Vector Byte 4) :
    s.collidePlanes scan pscr (s.collideSprites scan (s.collidePlanes scan pscr (s.collideSprites scan coll))) =
      s.collidePlanes scan pscr (s.collideSprites scan coll) := by
  refine coll_ext fun r k _ _ => Bool.eq_iff_iff.2 ?_
  simp only [getLsbD_collidePlanes, getLsbD_collideSprites]
  constructor
  · rintro ((hbefore | hsprites) | hplanes)
    · exact hbefore
    · exact .inl (.inr hsprites)
    · exact .inr hplanes
  · exact fun h => .inl (.inl h)

/-- Steps 4 to 6 run again on the state they left change nothing (R240, R266). -/
theorem renderScan_twice (p : State) (scan : List Sprite) :
    (p.renderScan scan).renderScan scan = p.renderScan scan := by
  have hcanvas : (p.renderScan scan).composite scan = p.composite scan := composite_twice p scan
  have hcoll : p.collidePlanes scan (p.composite scan).pscr (p.collideSprites scan (p.renderScan scan).coll) =
      (p.renderScan scan).coll := collide_twice p scan _ p.coll
  calc (p.renderScan scan).renderScan scan
      = { p.renderScan scan with
          pscr := ((p.renderScan scan).composite scan).pscr
          coll := p.collidePlanes scan ((p.renderScan scan).composite scan).pscr
            (p.collideSprites scan (p.renderScan scan).coll)
          out := { Outputs.none with
            frame := some
              { surface := ((p.renderScan scan).composite scan).surface
                colours := Tab.tabulate 6 p.rgb } } } := rfl
    _ = p.renderScan scan := by rw [hcanvas, hcoll]; rfl

/-- A FRAME right after a FRAME changes nothing (R240, R266). -/
theorem rendered_twice (s : State) : s.rendered.rendered = s.rendered := by
  have hscan : s.rendered.spriteScan = s.prepared.spriteScan := rfl
  rw [rendered_eq_renderScan s.rendered, prepared_rendered, hscan, rendered_eq_renderScan s, renderScan_twice]

end Sys2Proof.Machine
end

section
/-! CERTIFICATE. The statements of spec/44_compositor.md, settled. -/

namespace Sys2Proof.Proofs.Compositor

open Sys2Proof.Machine

/-- Settles O31: each step takes the layer the PROM names for the mask of the layers resolved before. -/
theorem promDecodeResolves : Obligations.PromDecodeResolves := by
  intro cfg c hc row named bit
  have hrow : row = promRow cfg c := get_promDecode cfg hc
  have hnamed : ∀ mask, (promLayer cfg c mask).number = named mask.toNat := promLayer_number cfg hc
  have hmask1 : ∀ l3, (maskWith 0 l3).toNat = bit l3 := fun l3 =>
    (maskWith_toNat 0 l3).trans (Nat.zero_or _)
  have hmask2 : ∀ l3 l2, (maskWith (maskWith 0 l3) l2).toNat = bit l3 ||| bit l2 := fun l3 l2 => by
    rw [maskWith_toNat, hmask1]
  have hmask3 : ∀ l3 l2 l1, (maskWith (maskWith (maskWith 0 l3) l2) l1).toNat = bit l3 ||| bit l2 ||| bit l1 :=
    fun l3 l2 l1 => by rw [maskWith_toNat, hmask2]
  rw [hrow]
  exact ⟨hnamed 0, (hnamed _).trans (congrArg named (hmask1 _)), (hnamed _).trans (congrArg named (hmask2 _ _)),
    (hnamed _).trans (congrArg named (hmask3 _ _ _))⟩

/-- Settles O32: with the fixture's entries, the layer named for each mask is the one the row holds. -/
theorem promFixtureRows : Obligations.PromFixtureRows := by
  intro cfg hprom
  have hrow0 : promRow cfg 0 = ⟨.back, .middle, .front, .sprites⟩ :=
    promRow_eq (promLayer_eq_of_low (by decide) (hprom 0x00 0 (by decide)))
      (promLayer_eq_of_low (by decide) (hprom 0x01 1 (by decide)))
      (promLayer_eq_of_low (by decide) (hprom 0x03 2 (by decide)))
      (promLayer_eq_of_low (by decide) (hprom 0x07 3 (by decide)))
  have hrow1 : promRow cfg 1 = ⟨.middle, .back, .front, .sprites⟩ :=
    promRow_eq (promLayer_eq_of_low (by decide) (hprom 0x10 0 (by decide)))
      (promLayer_eq_of_low (by decide) (hprom 0x11 1 (by decide)))
      (promLayer_eq_of_low (by decide) (hprom 0x13 3 (by decide)))
      (promLayer_eq_of_low (by decide) (hprom 0x1B 2 (by decide)))
  rw [get_promDecode cfg (by decide), get_promDecode cfg (by decide), hrow0, hrow1]
  exact ⟨rfl, rfl⟩

/-- Settles O34: step 0 of FRAME stops where `OBJEX` is set under `OBJEX_MODE = refuse`. -/
theorem frameRefusedWithObjex : Obligations.FrameRefusedWithObjex :=
  fun _ hmode hobjex => if_pos ⟨hmode, hobjex⟩

/-- Settles O42: FRAME leaves nothing dirty, and its last three steps do the same again. -/
theorem frameTwiceIsFrameOnce : Obligations.FrameTwiceIsFrameOnce := by
  intro s t h
  obtain ⟨hallowed, rfl⟩ := exec_frame_eq_next.1 h
  exact exec_frame_eq_next.2 ⟨hallowed, (rendered_twice s).symm⟩

end Sys2Proof.Proofs.Compositor
end

section
/-! SUPPORT. The bits of the sprites and of the planes after the two collision steps of FRAME, in terms of the active
slots (spec/45_collision.md R260 to R266). -/

namespace Sys2Proof.Machine

/-- The collision steps run unless the configuration ties them to the sprite enable and the sprites are off (R260). -/
theorem collisionsOn_iff {s : State} : s.collisionsOn = true ↔ ¬(s.cfg.collNeedsSpritesOn = true ∧ s.sen = false) := by
  rw [State.collisionsOn, Bool.not_eq_true', ← Bool.not_eq_true, Bool.and_eq_true, Bool.not_eq_true']

/-! ### Step 5: sprites against sprites -/

/-- Outside the hole each slot has a bit of its own (R262, R267). -/
theorem slotBit_eq_iff {i j : Nat} (hi : i < 32) (hj : j < 32) (hhi : Config.inHole i = false)
    (hhj : Config.inHole j = false) : min (i / 8) 2 = min (j / 8) 2 ∧ i % 8 = j % 8 ↔ i = j := by
  rw [inHole_eq_false_iff] at hhi hhj
  omega

/-- Some tested pair hits and slot i is one of its two (R261). -/
def State.inHitPair (s : State) (i : Nat) : Prop :=
  ∃ pq ∈ pairsOf s.spriteScan, s.spritesHit pq.1 pq.2 = true ∧ (i = pq.1.slot ∨ i = pq.2.slot)

/-- Two different active slots are tested as one pair, in one of the two orders; both orders hit alike (R261, R263). -/
theorem inHitPair_of_coOpaque {s : State} {i j : Nat} (hi : i < 32) (hj : j < 32) (hne : j ≠ i)
    (hion : s.slotOn i = true) (hjon : s.slotOn j = true) (hco : s.coOpaque i j) : s.inHitPair i := by
  have himem : s.sprite i ∈ s.spriteScan := mem_spriteScan.2 ⟨i, hi, hion, rfl⟩
  have hjmem : s.sprite j ∈ s.spriteScan := mem_spriteScan.2 ⟨j, hj, hjon, rfl⟩
  have hdistinct : s.sprite i ≠ s.sprite j := fun h => hne (congrArg Sprite.slot h).symm
  rcases pairsOf_complete himem hjmem hdistinct with hpair | hpair
  · exact ⟨_, hpair, (spritesHit_iff s i j).2 hco, .inl rfl⟩
  · exact ⟨_, hpair, (spritesHit_iff s j i).2 (coOpaque_symm hco), .inr rfl⟩

/-- The two sprites of a tested pair are different active slots (R210, R261). -/
theorem slots_of_mem_pairsOf_spriteScan {s : State} {p q : Sprite} (h : (p, q) ∈ pairsOf s.spriteScan) :
    ∃ a < 32, ∃ b < 32, a ≠ b ∧ s.slotOn a = true ∧ s.slotOn b = true ∧ p = s.sprite a ∧ q = s.sprite b := by
  obtain ⟨hp, hq⟩ := mem_pairsOf h
  obtain ⟨a, ha, haon, rfl⟩ := mem_spriteScan.1 hp
  obtain ⟨b, hb, hbon, rfl⟩ := mem_spriteScan.1 hq
  have hne : a ≠ b := fun hab => ne_of_mem_pairsOf (spriteScan_nodup s) h (congrArg s.sprite hab)
  exact ⟨a, ha, b, hb, hne, haon, hbon, rfl, rfl⟩

/-- A slot is in a pair that hits exactly if it is active and has a co-opaque pixel with another active slot (R261). -/
theorem inHitPair_iff {s : State} {i : Nat} (hi : i < 32) :
    s.inHitPair i ↔ s.slotOn i = true ∧ ∃ j < 32, j ≠ i ∧ s.slotOn j = true ∧ s.coOpaque i j := by
  constructor
  · rintro ⟨⟨p, q⟩, hpair, hhit, hslot⟩
    obtain ⟨a, ha, b, hb, hne, haon, hbon, rfl, rfl⟩ := slots_of_mem_pairsOf_spriteScan hpair
    have hco : s.coOpaque a b := (spritesHit_iff s a b).1 hhit
    rcases hslot with rfl | rfl
    · exact ⟨haon, b, hb, hne.symm, hbon, hco⟩
    · exact ⟨hbon, a, ha, hne, haon, coOpaque_symm hco⟩
  · rintro ⟨hion, j, hj, hne, hjon, hco⟩
    exact inHitPair_of_coOpaque hi hj hne hion hjon hco

/-- The bit of a slot outside the hole after step 5 of FRAME (R260 to R262). -/
theorem spriteBit_collideSprites (s : State) (c : Vector Byte 4) {i : Nat} (hi : i < 32)
    (hhi : Config.inHole i = false) :
    spriteBit (s.collideSprites s.spriteScan c) i = true ↔
      spriteBit c i = true ∨ s.collisionsOn = true ∧ s.inHitPair i := by
  have hbits : ∀ pq ∈ pairsOf s.spriteScan,
      (min (i / 8) 2 = min (pq.1.slot / 8) 2 ∧ i % 8 = pq.1.slot % 8 ∨
        min (i / 8) 2 = min (pq.2.slot / 8) 2 ∧ i % 8 = pq.2.slot % 8) ↔ i = pq.1.slot ∨ i = pq.2.slot := by
    rintro ⟨p, q⟩ hpair
    obtain ⟨a, ha, b, hb, -, haon, hbon, rfl, rfl⟩ := slots_of_mem_pairsOf_spriteScan hpair
    exact or_congr (slotBit_eq_iff hi ha hhi (not_inHole_of_slotOn haon))
      (slotBit_eq_iff hi hb hhi (not_inHole_of_slotOn hbon))
  rw [spriteBit, getLsbD_collideSprites]
  exact or_congr_right (and_congr_right fun _ => exists_congr fun pq =>
    and_congr_right fun hpair => and_congr_right fun _ => hbits pq hpair)

/-- Step 5 of FRAME sets no bit of a plane (R262). -/
theorem planeBit_collideSprites (s : State) (scan : List Sprite) (c : Vector Byte 4) (n : Plane) :
    planeBit (s.collideSprites scan c) n = planeBit c n := by
  refine Bool.eq_iff_iff.2 ((getLsbD_collideSprites s scan c 3 n.number).trans (or_iff_left ?_))
  rintro ⟨-, pq, -, -, hslot⟩
  omega

/-! ### Step 6: sprites against planes -/

/-- Step 6 of FRAME sets no bit of a sprite (R264). -/
theorem spriteBit_collidePlanes (s : State) (scan : List Sprite) (pscr : PerPlane (Tab PalIdx 16)) (c : Vector Byte 4)
    (i : Nat) : spriteBit (s.collidePlanes scan pscr c) i = spriteBit c i := by
  refine Bool.eq_iff_iff.2 ((getLsbD_collidePlanes s scan pscr c _ _).trans (or_iff_left ?_))
  rintro ⟨-, hregister, -⟩
  omega

theorem Plane.number_injective : Function.Injective Plane.number := by
  intro m n
  cases m <;> cases n <;> decide

theorem Plane.mem_all (n : Plane) : n ∈ Plane.all := by cases n <;> decide

/-- Every active slot is tested against every plane (R264). -/
theorem mem_planeTests {s : State} {p : Sprite} {n : Plane} :
    ((p, n) ∈ s.spriteScan.flatMap fun p => Plane.all.map fun n => (p, n)) ↔
      ∃ i < 32, s.slotOn i = true ∧ p = s.sprite i := by
  simp only [List.mem_flatMap, List.mem_map, Prod.mk.injEq, ← mem_spriteScan]
  constructor
  · rintro ⟨_, hp, _, -, rfl, -⟩
    exact hp
  · exact fun hp => ⟨p, hp, n, n.mem_all, rfl, rfl⟩

/-- The bit of a plane after step 6 of FRAME, whose test reads the scratch buffers given (R260, R264, R265). -/
theorem planeBit_collidePlanes (s : State) (pscr : PerPlane (Tab PalIdx 16)) (c : Vector Byte 4) (n : Plane) :
    planeBit (s.collidePlanes s.spriteScan pscr c) n = true ↔
      planeBit c n = true ∨ s.collisionsOn = true ∧ s.pen n = true ∧
        ∃ i < 32, s.slotOn i = true ∧ State.overPlane { s with pscr := pscr } i n := by
  rw [planeBit, getLsbD_collidePlanes]
  refine or_congr_right (and_congr_right fun _ => ?_)
  constructor
  · rintro ⟨-, ⟨p, m⟩, htest, hpen, hhit, hnumber⟩
    obtain rfl : n = m := Plane.number_injective hnumber
    obtain ⟨i, hi, hon, rfl⟩ := mem_planeTests.1 htest
    exact ⟨hpen, i, hi, hon, (planeHit_iff s pscr i n).1 hhit⟩
  · rintro ⟨hpen, i, hi, hon, hover⟩
    exact ⟨rfl, (s.sprite i, n), mem_planeTests.2 ⟨i, hi, hon, rfl⟩, hpen, (planeHit_iff s pscr i n).2 hover, rfl⟩

/-! ### The bits after FRAME

FRAME tests the prepared state, with the scratch buffers of its composite; the rendered state holds the same slots,
patterns and enables, and those scratch buffers (R240). -/

/-- The bit of a slot outside the hole after FRAME, by the slots of the rendered state (R260 to R262, R266). -/
theorem spriteBit_rendered (s : State) {i : Nat} (hi : i < 32) (hhi : Config.inHole i = false) :
    spriteBit s.rendered.coll i = true ↔
      spriteBit s.coll i = true ∨ s.rendered.collisionsOn = true ∧ s.rendered.inHitPair i := by
  have hplanes : spriteBit s.rendered.coll i =
      spriteBit (s.prepared.collideSprites s.prepared.spriteScan s.coll) i :=
    spriteBit_collidePlanes s.prepared _ _ _ i
  rw [hplanes]
  exact spriteBit_collideSprites s.prepared s.coll hi hhi

/-- The bit of a plane after FRAME, by the slots and the scratch buffers of the rendered state (R260, R264 to R266). -/
theorem planeBit_rendered (s : State) (n : Plane) :
    planeBit s.rendered.coll n = true ↔
      planeBit s.coll n = true ∨ s.rendered.collisionsOn = true ∧ s.rendered.pen n = true ∧
        ∃ i < 32, s.rendered.slotOn i = true ∧ s.rendered.overPlane i n := by
  have hsprites : planeBit (s.prepared.collideSprites s.prepared.spriteScan s.coll) n = planeBit s.coll n :=
    planeBit_collideSprites s.prepared _ _ n
  rw [← hsprites]
  exact planeBit_collidePlanes s.prepared s.rendered.pscr _ n

end Sys2Proof.Machine
end

section
/-! CERTIFICATE. The statements of spec/45_collision.md, settled. -/

namespace Sys2Proof.Proofs.Collision

open Sys2Proof.Machine

/-- Settles O39: a slot's bit is set by the pairs that hit and hold the slot, which are those with a co-opaque active
slot. -/
theorem frameSpriteCollisions : Obligations.FrameSpriteCollisions := by
  intro s t h i hi hhi
  obtain ⟨-, rfl⟩ := exec_frame_eq_next.1 h
  rw [spriteBit_rendered s hi hhi, collisionsOn_iff, inHitPair_iff hi]

/-- Settles O40: a plane's bit is set by the tests of the active slots against that plane. -/
theorem framePlaneCollisions : Obligations.FramePlaneCollisions := by
  intro s t h n
  obtain ⟨-, rfl⟩ := exec_frame_eq_next.1 h
  rw [planeBit_rendered s n, collisionsOn_iff]

/-- Settles O41: each of the two slots is, for the other, the co-opaque active slot that O39 asks for. -/
theorem spriteCollisionIsSymmetric : Obligations.SpriteCollisionIsSymmetric := by
  intro s t h htests i j hi hj hne hion hjon hco
  constructor
  · exact (frameSpriteCollisions s t h i hi (not_inHole_of_slotOn hion)).2
      (.inr ⟨htests, hion, j, hj, hne.symm, hjon, hco⟩)
  · exact (frameSpriteCollisions s t h j hj (not_inHole_of_slotOn hjon)).2
      (.inr ⟨htests, hjon, i, hi, hne, hion, coOpaque_symm hco⟩)

end Sys2Proof.Proofs.Collision
end

section
/-! SUPPORT. The protection bridge: the answers of its ports, the lines of port B under R5's assignment, and what each
transaction can do to the flags, the latches and the interrupt line (spec/46_mcu_bridge.md R290 to R318). -/

namespace Sys2Proof.Machine

/-! ### The flags as the ports show them -/

/-- Port C shows `ZREADY + 2 * ZACCEPT` (R309). -/
theorem portC_eq_ofNat (s : State) : s.portC = BitVec.ofNat 8 (s.zready.toNat + 2 * s.zaccept.toNat) := by
  unfold State.portC
  cases s.zready <;> cases s.zaccept <;> rfl

/-! ### The CPU's side -/

theorem exec_cwMcudata_mcu {s : State} (h : s.cfg.protVariant = .mcu) (v : Byte) :
    exec (.cwMcudata v) s = .next (s.defer (.cpuData v)).quiet := congrArg _ (if_pos h)

theorem exec_cwMcudata_stub {s : State} (h : s.cfg.protVariant ≠ .mcu) (v : Byte) :
    exec (.cwMcudata v) s = .next s.quiet := congrArg _ (if_neg h)

theorem exec_crMcudata_mcu {s : State} (h : s.cfg.protVariant = .mcu) :
    exec .crMcudata s = .next ((s.defer .cpuTook).respond s.toz80) := congrArg _ (if_pos h)

theorem exec_crMcudata_stub {s : State} (h : s.cfg.protVariant ≠ .mcu) :
    exec .crMcudata s = .next (s.respond 0x00) := congrArg _ (if_neg h)

theorem exec_crMcustatus_mcu {s : State} (h : s.cfg.protVariant = .mcu) :
    exec .crMcustatus s = .next ((if s.cfg.statusReadSyncs then s.drain else s).respond s.status) :=
  congrArg _ (if_pos h)

theorem exec_crMcustatus_stub {s : State} (h : s.cfg.protVariant ≠ .mcu) :
    exec .crMcustatus s = .next (s.respond 0xFF) := congrArg _ (if_neg h)

/-! ### The alpine lookup -/

/-- A code of the table selects the value of its first row (R313). -/
theorem alpineValue_of_first {cfg : Config} {v r : Byte} {l l' : List (Byte × Byte)}
    (htable : cfg.alpineTable = l ++ (v, r) :: l') (hfirst : ∀ x ∈ l, x.1 ≠ v) : alpineValue cfg v = r := by
  have hfind : cfg.alpineTable.find? (fun row => row.1 == v) = some (v, r) :=
    List.find?_eq_some_iff_append.2 ⟨beq_self_eq_true v, l, l', htable, fun x hx => by simpa using hfirst x hx⟩
  rw [alpineValue, hfind]

/-- A code that is not of the table passes through (R313). -/
theorem alpineValue_of_unlisted {cfg : Config} {v : Byte} (h : ∀ r ∈ cfg.alpineTable, r.1 ≠ v) :
    alpineValue cfg v = v := by
  have hfind : cfg.alpineTable.find? (fun row => row.1 == v) = none :=
    List.find?_eq_none.2 fun r hr => by simpa using h r hr
  rw [alpineValue, hfind]

/-- A draw of the host's port takes the byte laid out first, or else advances the counter (R8, R9). -/
theorem portDrawn_eq (s : State) :
    s.portDrawn = { s with
      portIn := s.portIn.tail
      draws := if s.portIn.isEmpty then s.draws + 1 else s.draws } := by
  unfold State.portDrawn
  split <;> simp [*]

/-- A draw of the memory bus takes the byte laid out first, or else advances the counter (R8, R9). -/
theorem busDrawn_eq (s : State) :
    s.busDrawn = { s with
      busIn := s.busIn.tail
      draws := if s.busIn.isEmpty then s.draws + 1 else s.draws } := by
  unfold State.busDrawn
  split <;> simp [*]

/-! ### The address of the indirect accesses -/

/-- An address is its high byte and its low byte (R40). -/
theorem hi_append_lo (a : BusAddr) : a.extractLsb' 8 8 ++ a.extractLsb' 0 8 = a :=
  BitVec.extractLsb'_append_extractLsb'

theorem and_0xFF00 (a : BusAddr) : a &&& 0xFF00 = a.extractLsb' 8 8 ++ 0#8 := by
  calc a &&& 0xFF00 = (a.extractLsb' 8 8 ++ a.extractLsb' 0 8) &&& (BitVec.allOnes 8 ++ 0#8) := by
        rw [hi_append_lo]; rfl
    _ = a.extractLsb' 8 8 ++ 0#8 := by rw [BitVec.and_append, BitVec.and_allOnes, BitVec.and_zero]

theorem and_0x00FF (a : BusAddr) : a &&& 0x00FF = 0#8 ++ a.extractLsb' 0 8 := by
  calc a &&& 0x00FF = (a.extractLsb' 8 8 ++ a.extractLsb' 0 8) &&& (0#8 ++ BitVec.allOnes 8) := by
        rw [hi_append_lo]; rfl
    _ = 0#8 ++ a.extractLsb' 0 8 := by rw [BitVec.and_append, BitVec.and_allOnes, BitVec.and_zero]

/-- The low byte of a successor is the successor of the low byte: nothing below carries into it. -/
theorem lo_add_one (a : BusAddr) : (a + 1).extractLsb' 0 8 = a.extractLsb' 0 8 + 1 := by
  rw [← BitVec.setWidth_eq_extractLsb' (by decide), ← BitVec.setWidth_eq_extractLsb' (by decide),
    BitVec.setWidth_add _ _ (by decide)]
  rfl

/-- The address after an indirect write, by masks: the high byte stays and the low byte increments (R306). -/
theorem addrNext_eq_masked (a : BusAddr) : addrNext a = (a &&& 0xFF00) ||| ((a + 1) &&& 0x00FF) := by
  rw [and_0xFF00, and_0x00FF, BitVec.or_append, BitVec.or_zero, BitVec.zero_or, lo_add_one, addrNext]

/-! ### The lines of port B, one by one -/

/-- The state after a line's turn in a write of port B: the line acts if it is asserted (R301). -/
def lineWhen (asserted : Bool) (s : State) (l : PortBLine) : State := if asserted then lineAction s l else s

/-- A bit with a line gives the line its turn, asserted by 0 (R106, R301). -/
theorem portBit_eq_lineWhen {v : Byte} {s : State} {k : Nat} {l : PortBLine}
    (h : s.cfg.portbMap[k]? = some (some l)) : portBit v s k = lineWhen (!v.getLsbD k) s l := by
  rw [portBit, h]
  cases v.getLsbD k <;> rfl

theorem lineWhen_intrq (b : Bool) (s : State) : lineWhen b s .intrq = s := by
  cases b <;> rfl

theorem lineWhen_readLatch (b : Bool) (s : State) :
    lineWhen b s .readLatch = { s with
      evq := s.evq ++ if b then [.mcuTook] else []
      mcuIrq := s.mcuIrq && !b
      portaIn := if b then s.fromz80 else s.portaIn } := by
  cases b <;> simp [lineWhen, lineAction, State.readLatch, State.defer, State.ackIrq]

theorem lineWhen_writeLatch (b : Bool) (s : State) :
    lineWhen b s .writeLatch = { s with evq := s.evq ++ if b then [.mcuData s.portaOut] else [] } := by
  cases b <;> simp [lineWhen, lineAction, State.writeLatch, State.defer]

theorem lineWhen_memWrite (b : Bool) (s : State) :
    lineWhen b s .memWrite = { s with
      addr16 := if b then addrNext s.addr16 else s.addr16
      out := { s.out with busWrites := s.out.busWrites ++ if b then [(s.addr16, s.portaOut)] else [] } } := by
  cases b <;> simp [lineWhen, lineAction, State.memWrite]

theorem lineWhen_memRead (b : Bool) (s : State) :
    lineWhen b s .memRead = { s with
      portaIn := if b then s.busByte else s.portaIn
      busIn := if b then s.busIn.tail else s.busIn
      draws := if b && s.busIn.isEmpty then s.draws + 1 else s.draws
      out := { s.out with busReads := s.out.busReads ++ if b then [s.addr16] else [] } } := by
  cases b <;> simp [lineWhen, lineAction, State.memRead, busDrawn_eq]

theorem lineWhen_addrLow (b : Bool) (s : State) :
    lineWhen b s .addrLow = { s with
      addr16 := s.addr16.extractLsb' 8 8 ++ if b then s.portaOut else s.addr16.extractLsb' 0 8 } := by
  cases b
  · simp only [Bool.false_eq_true, if_false, hi_append_lo]; rfl
  · rfl

theorem lineWhen_addrHigh (b : Bool) (s : State) :
    lineWhen b s .addrHigh = { s with
      addr16 := (if b then s.portaOut else s.addr16.extractLsb' 8 8) ++ s.addr16.extractLsb' 0 8 } := by
  cases b
  · simp only [Bool.false_eq_true, if_false, hi_append_lo]; rfl
  · rfl

/-! ### A write of port B under R5's line assignment -/

/-- The bits of port B that have a line under R5's assignment, each with its line. -/
def standardLines : List (Nat × PortBLine) :=
  [(0, .intrq), (1, .readLatch), (2, .writeLatch), (3, .memWrite), (4, .memRead), (5, .addrLow), (6, .addrHigh)]

theorem lineWhen_cfg (b : Bool) (s : State) (l : PortBLine) : (lineWhen b s l).cfg = s.cfg := by
  cases b
  · rfl
  · change (lineAction s l).cfg = s.cfg
    rw [lineAction_frame]

/-- The bits of some lines act as the lines' turns, in the same order (R301). -/
theorem foldl_portBit_of_lines {v : Byte} {lines : List (Nat × PortBLine)} {s : State}
    (h : ∀ p ∈ lines, s.cfg.portbMap[p.1]? = some (some p.2)) :
    (lines.map Prod.fst).foldl (portBit v) s =
      lines.foldl (fun u p => lineWhen (!v.getLsbD p.1) u p.2) s := by
  induction lines generalizing s with
  | nil => rfl
  | cons p lines ih =>
    have hfirst : portBit v s p.1 = lineWhen (!v.getLsbD p.1) s p.2 := portBit_eq_lineWhen (h p List.mem_cons_self)
    have hrest : ∀ q ∈ lines, (lineWhen (!v.getLsbD p.1) s p.2).cfg.portbMap[q.1]? = some (some q.2) := by
      intro q hq
      rw [lineWhen_cfg]
      exact h q (List.mem_cons_of_mem p hq)
    rw [List.map_cons, List.foldl_cons, hfirst, ih hrest, List.foldl_cons]

/-- Under R5's assignment a write of port B is the turns of the seven lines in ascending bit order: bit 7 has no line
(R301, R106). -/
theorem portBits_standard {s : State} (hmap : s.cfg.portbMap = Config.standardPortb) (v : Byte) :
    portBits.foldl (portBit v) s = standardLines.foldl (fun u p => lineWhen (!v.getLsbD p.1) u p.2) s := by
  have hlines : ∀ p ∈ standardLines, s.cfg.portbMap[p.1]? = some (some p.2) := by
    rw [hmap]; decide
  have hlast : ∀ u : State, u.cfg = s.cfg → portBit v u 7 = u := by
    intro u hu
    refine portBit_of_unasserted fun l hl => ?_
    rw [hu, hmap] at hl
    cases hl
  have hcfg : ∀ ks : List Nat, (ks.foldl (portBit v) s).cfg = s.cfg := by
    intro ks
    rw [portBits_frame]
  have hbits : portBits = standardLines.map Prod.fst ++ [7] := rfl
  calc portBits.foldl (portBit v) s = portBit v ((standardLines.map Prod.fst).foldl (portBit v) s) 7 := by
        rw [hbits, List.foldl_append, List.foldl_cons, List.foldl_nil]
    _ = (standardLines.map Prod.fst).foldl (portBit v) s := hlast _ (hcfg _)
    _ = _ := foldl_portBit_of_lines hlines

/-! ### What a transaction can do to the bridge -/

/-- A drain never lets the interrupt line fall: only `EvCpuData` touches it, and raises it (R296, R318 (2)). -/
theorem drain_mcuIrq_of_raised {s : State} (h : s.mcuIrq = true) : s.drain.mcuIrq = true := by
  have hfold : ∀ (q : List Deferred) (u : State), u.mcuIrq = true → (q.foldl applyDeferred u).mcuIrq = true := by
    intro q
    induction q with
    | nil => exact fun _ => id
    | cons e q ih =>
      refine fun u hu => ih _ ?_
      cases e with
      | cpuData => rfl
      | cpuTook | mcuTook | mcuData => exact hu
  exact hfold s.evq s h

/-- `t` with the flags, the latches, the address and the interrupt line of `s` in place of its own. -/
def State.withBridgeOf (t s : State) : State :=
  { t with
    zready := s.zready
    zaccept := s.zaccept
    fromz80 := s.fromz80
    toz80 := s.toz80
    portaIn := s.portaIn
    portaOut := s.portaOut
    addr16 := s.addr16
    mcuIrq := s.mcuIrq }

/-- What a transaction can do to the bridge: a SYNC drains, a status read may end with a drain, the MCU's writes act,
and RESET creates all anew; whatever else a transaction does leaves the bridge alone. -/
inductive BridgeEffect (s : State) : Instr → State → Prop where
  | sync : BridgeEffect s .sync s.drain.quiet
  | status : BridgeEffect s .crMcustatus (s.drain.respond s.status)
  | porta (v : Byte) : BridgeEffect s (.mwPorta v) { s.quiet with portaOut := v }
  | portb (v : Byte) : BridgeEffect s (.mwPortb v) (portBits.foldl (portBit v) s.quiet)
  | reset : BridgeEffect s .reset s.recreate
  | other (i : Instr) (t : State) : BridgeEffect s i (t.withBridgeOf s)

/-- A state that has kept the bridge of `s` is one any transaction can leave. -/
theorem BridgeEffect.of_kept {s t : State} (i : Instr) (h : t.withBridgeOf s = t) : BridgeEffect s i t :=
  h ▸ .other i t

theorem BridgeEffect.of_next {s t u : State} (i : Instr) (h : (.next u : Host.Outcome State Fault Refusal) = .next t)
    (hu : u.withBridgeOf s = u) : BridgeEffect s i t := Host.Outcome.next.inj h ▸ .of_kept i hu

theorem BridgeEffect.of_inVariant {s t u : State} {v : ProtVariant} (i : Instr) (h : inVariant s v u = .next t)
    (hu : u.withBridgeOf s = u) : BridgeEffect s i t := (inVariant_eq_next.1 h).2 ▸ .of_kept i hu

/-- An update chosen by a condition keeps the bridge if both updates do. -/
theorem ite_keeps_bridge {c : Prop} [Decidable c] {s a b : State} (ha : a.withBridgeOf s = a)
    (hb : b.withBridgeOf s = b) : (if c then a else b).withBridgeOf s = if c then a else b := by
  split
  · exact ha
  · exact hb

theorem storeCram_keeps_bridge (s : State) (off : Nat) (v : Byte) :
    (s.storeCram off v).quiet.withBridgeOf s = (s.storeCram off v).quiet := by
  rw [storeCram_frame]; rfl

theorem storeVram_keeps_bridge (s : State) (n : Plane) (off : Nat) (v : Byte) :
    (s.storeVram n off v).quiet.withBridgeOf s = (s.storeVram n off v).quiet := by
  rw [storeVram_frame]; rfl

/-- A status read syncs in the variant MCU under `STATUS_READ_SYNCS`, and otherwise leaves the bridge alone (R293, R294,
R316). -/
theorem bridgeEffect_of_crMcustatus {s t : State} (h : exec .crMcustatus s = .next t) :
    BridgeEffect s .crMcustatus t := by
  by_cases hmcu : s.cfg.protVariant = .mcu
  · rw [exec_crMcustatus_mcu hmcu] at h
    split at h
    next => exact Host.Outcome.next.inj h ▸ .status
    next => exact .of_next _ h rfl
  · rw [exec_crMcustatus_stub hmcu] at h
    exact .of_next _ h rfl

/-- Every transaction that completes has one of the effects on the bridge (R318). -/
theorem bridgeEffect_of_exec {i : Instr} {s t : State} (h : exec i s = .next t) : BridgeEffect s i t := by
  cases i with
  | sync => exact Host.Outcome.next.inj h ▸ .sync
  | reset => exact Host.Outcome.next.inj h ▸ .reset
  | crMcustatus => exact bridgeEffect_of_crMcustatus h
  | mwPorta v => exact (inVariant_eq_next.1 h).2 ▸ .porta v
  | mwPortb v => exact (inVariant_eq_next.1 h).2 ▸ .portb v
  | frame => exact (exec_frame_eq_next.1 h).2 ▸ .of_kept _ rfl
  | cwCram off v => exact .of_next _ h (storeCram_keeps_bridge s off v)
  | cwVram0 off v => exact .of_next _ h (storeVram_keeps_bridge s .front off v)
  | cwVram1 off v => exact .of_next _ h (storeVram_keeps_bridge s .middle off v)
  | cwVram2 off v => exact .of_next _ h (storeVram_keeps_bridge s .back off v)
  | cwColorbank | cwViden | cwMcudata | crMcudata => exact .of_next _ h (ite_keeps_bridge rfl rfl)
  | crAlpinein => exact .of_inVariant _ h (by rw [portDrawn_eq]; rfl)
  | mrPorta | mrPortb | mrPortc | cwAlpinecode => exact .of_inVariant _ h rfl
  | cwColscroll | cwSpram | cwPalram | crVram0 | crVram1 | crVram2 | crColscroll | crSpram | cwPriority | cwScroll
  | crColl | cwCollclr | cwGfxptr | crGfxrom | cwBanksw => exact .of_next _ h rfl

end Sys2Proof.Machine
end

section
/-! CERTIFICATE. The statements of spec/46_mcu_bridge.md, settled. -/

namespace Sys2Proof.Proofs.McuBridge

open Sys2Proof.Machine

/-- Settles O20. -/
theorem mcuDataPortDefers : Obligations.McuDataPortDefers :=
  fun _ v hmcu => ⟨exec_cwMcudata_mcu hmcu v, exec_crMcudata_mcu hmcu⟩

/-- Settles O21: the answer is the sampled status, on the drained state or the same. -/
theorem statusSamplesThenSyncs : Obligations.StatusSamplesThenSyncs := by
  intro s hmcu
  refine ⟨_, s.drain.quiet, exec_crMcustatus_mcu hmcu, rfl, ?_, ?_⟩
  · refine congrArg (fun b => { Outputs.none with data := some b }) ?_
    rw [State.status, portC_eq_ofNat]
    cases s.zready <;> cases s.zaccept <;> rfl
  · split <;> rfl

/-- Settles O22. -/
theorem stubsWithoutMcu : Obligations.StubsWithoutMcu :=
  fun _ v hne => ⟨exec_crMcudata_stub hne, exec_crMcustatus_stub hne, exec_cwMcudata_stub hne v⟩

/-- Settles O23: each port answers in the variant MCU, port C by its flags; the decoder's port table names one
transaction for port C. -/
theorem mcuPortsAnswer : Obligations.McuPortsAnswer := by
  intro s v hmcu
  refine ⟨inVariant_of_eq hmcu _, inVariant_of_eq hmcu _, ?_, inVariant_of_eq hmcu _, fun i hport => ?_⟩
  · rw [← portC_eq_ofNat]
    exact inVariant_of_eq hmcu _
  · cases i with
    | mrPortc => rfl
    | _ => cases hport

/-- Settles O24: the write is the turns of the seven lines, each an update of the state as the lines below left it. -/
theorem mwPortbLines : Obligations.MwPortbLines := by
  intro s v hmcu hmap low a
  have hnext : a = if low 3 then addrNext s.addr16 else s.addr16 := by rw [addrNext_eq_masked]
  have hexec : exec (.mwPortb v) s =
      .next (standardLines.foldl (fun u p => lineWhen (low p.1) u p.2) s.quiet) :=
    (inVariant_of_eq hmcu _).trans (congrArg _ (portBits_standard (s := s.quiet) hmap v))
  simp only [standardLines, List.foldl_cons, List.foldl_nil, lineWhen_intrq, lineWhen_readLatch, lineWhen_writeLatch,
    lineWhen_memWrite, lineWhen_memRead, lineWhen_addrLow, lineWhen_addrHigh, BitVec.extractLsb'_append_eq_left,
    BitVec.extractLsb'_append_eq_right] at hexec
  rw [hnext]
  exact ⟨_, hexec, rfl, rfl, rfl, rfl, rfl, rfl⟩

/-- Settles O27: the write by the table's lookup, the read by the draw from the host's port. -/
theorem alpineLookup : Obligations.AlpineLookup := by
  intro s v halpine
  refine ⟨⟨_, inVariant_of_eq halpine _, alpineValue_of_unlisted, fun _ _ _ => alpineValue_of_first, rfl⟩,
    ⟨_, inVariant_of_eq halpine _, ?_⟩⟩
  rw [portDrawn_eq]
  rfl

/-- Settles O29, by the effects on the bridge: a drain changes the flags and the CPU's latches and never lets the line
fall, and port B's write changes the rest, letting the line fall by the read latch alone. -/
theorem bridgeChangesOnlyWhereSaid : Obligations.BridgeChangesOnlyWhereSaid := by
  intro i s t h hreset
  have notBoth {b : Bool} (hup : b = true) (hdown : b = false) : False := Bool.false_ne_true (hdown.symm.trans hup)
  cases bridgeEffect_of_exec h with
  | reset => exact absurd rfl hreset
  | sync =>
    refine ⟨fun hne => absurd rfl hne, fun hup hdown => ?_, fun _ => ?_⟩
    · exact (notBoth (drain_mcuIrq_of_raised hup) hdown).elim
    · rw [drain_frame]; exact ⟨rfl, rfl, rfl⟩
  | status =>
    refine ⟨fun _ hne => absurd rfl hne, fun hup hdown => ?_, fun _ => ?_⟩
    · exact (notBoth (drain_mcuIrq_of_raised hup) hdown).elim
    · rw [drain_frame]; exact ⟨rfl, rfl, rfl⟩
  | porta v =>
    exact ⟨fun _ _ => ⟨rfl, rfl, rfl, rfl, id⟩, fun hup hdown => (notBoth hup hdown).elim,
      fun hne => absurd rfl hne⟩
  | portb v =>
    refine ⟨fun _ _ => ?_, fun hup hdown => ?_, fun hne => absurd rfl hne⟩
    · have hrise := portBits_mcuIrq (v := v) (ks := portBits) (s := s.quiet)
      generalize portBits = ks at hrise ⊢
      rw [portBits_frame]
      exact ⟨rfl, rfl, rfl, rfl, hrise⟩
    · obtain ⟨k, -, hline, hbit⟩ := portBits_ackIrq (s := s.quiet) hup hdown
      exact ⟨v, k, rfl, hline, hbit⟩
  | other _ u =>
    exact ⟨fun _ _ => ⟨rfl, rfl, rfl, rfl, id⟩, fun hup hdown => (notBoth hup hdown).elim,
      fun _ => ⟨rfl, rfl, rfl⟩⟩

/-- Settles O53: of the MCU's five transactions the reads change nothing, port A's write its latch, and port B's write
what the lines can change. -/
theorem mcuEventsLeaveVideoAlone : Obligations.McuEventsLeaveVideoAlone := by
  intro i s t h hagent
  cases i with
  | mrPorta | mwPorta | mrPortb | mrPortc =>
    obtain ⟨-, rfl⟩ := inVariant_eq_next.1 h
    rfl
  | mwPortb v =>
    have ht : t = portBits.foldl (portBit v) s.quiet := (inVariant_eq_next.1 h).2
    generalize portBits = ks at ht
    rw [ht, portBits_frame]
    rfl
  | _ => clear h; cases hagent

end Sys2Proof.Proofs.McuBridge
end

section
/-! SUPPORT. FRAME under `OBJEX_MODE = ignored` reads `VIDEN` through the flips and the enables alone, never through
`OBJEX` (spec/10_state.md R35; spec/70_reset_and_hazards.md R388). -/

namespace Sys2Proof.Machine

/-- A byte that differs from `VIDEN` at most in `OBJEX`, its bit 2 (R35). -/
def State.VidenUpToObjex (s : State) (v : Byte) : Prop := ∀ k, k ≠ 2 → v.getLsbD k = s.viden.getLsbD k

/-- Flipping `VIDEN[2]` leaves the seven other bits. -/
theorem videnUpToObjex_flip (s : State) : s.VidenUpToObjex (s.viden ^^^ 0x04) := by
  intro k hk
  have hmask : (0x04 : Byte).getLsbD k = false :=
    (BitVec.getLsbD_twoPow 2 k).trans (by rw [decide_eq_false hk.symm, Bool.and_false])
  rw [BitVec.getLsbD_xor, hmask, Bool.xor_false]

section
variable {s : State} {v : Byte} (hv : s.VidenUpToObjex v)
include hv

/-! ### The fields of `VIDEN` that FRAME reads -/

theorem gfx_with_viden : ({ s with viden := v } : State).gfx = s.gfx := hv 0 (by decide)

theorem gfy_with_viden : ({ s with viden := v } : State).gfy = s.gfy := hv 1 (by decide)

theorem pen_with_viden (n : Plane) : ({ s with viden := v } : State).pen n = s.pen n := hv _ (by omega)

theorem sen_with_viden : ({ s with viden := v } : State).sen = s.sen := hv 7 (by decide)

/-! ### Steps 1 to 3 -/

/-- The redraw mirrors cells and pixels by the flips (R190, R191). -/
theorem redrawn_with_viden : ({ s with viden := v } : State).redrawn = s.redrawn := by
  funext n
  have hcellAt : ({ s with viden := v } : State).cellAt = s.cellAt := by
    funext x y
    rw [State.cellAt, gfx_with_viden hv, gfy_with_viden hv]
    rfl
  have hpixel : ({ s with viden := v } : State).cellPixel n = s.cellPixel n := by
    funext c j i
    rw [State.cellPixel, gfx_with_viden hv, gfy_with_viden hv]
    rfl
  rw [State.redrawn, hcellAt, hpixel]
  rfl

/-- The decode reads no `VIDEN` (R170). -/
theorem prepared_with_viden : ({ s with viden := v } : State).prepared = { s.prepared with viden := v } := by
  have hdecoded : s.decodeDirty.VidenUpToObjex v := hv
  change ({ s.decodeDirty with viden := v } : State).redrawCells = _
  rw [State.redrawCells, redrawn_with_viden hdecoded]
  rfl

/-! ### The sprite scan and the composite -/

/-- The scan mirrors the drawn origins by the flips (R210). -/
theorem spriteScan_with_viden : ({ s with viden := v } : State).spriteScan = s.spriteScan := by
  have hsprite : ({ s with viden := v } : State).sprite = s.sprite := by
    funext i
    rw [State.sprite, State.slotBx, State.slotBy, gfx_with_viden hv, gfy_with_viden hv]
    rfl
  rw [State.spriteScan, hsprite]
  rfl

/-- A plane's scrolled pixels depend on the flips (R193, R194). -/
theorem planePixel_with_viden : ({ s with viden := v } : State).planePixel = s.planePixel := by
  have hscrollH : ({ s with viden := v } : State).scrollH = s.scrollH := by
    funext n
    rw [State.scrollH, gfx_with_viden hv]
    rfl
  have hscrollV : ({ s with viden := v } : State).scrollV = s.scrollV := by
    funext n c
    rw [State.scrollV, gfy_with_viden hv]
    rfl
  funext n x y
  rw [State.planePixel, hscrollH, hscrollV]
  rfl

/-- A plane is drawn and copied by its enable and its scrolled pixels (R195, R197). -/
theorem drawPlane_with_viden : ({ s with viden := v } : State).drawPlane = s.drawPlane := by
  funext scan n c
  have hdraw : ({ s with viden := v } : State).drawPlaneAt n = s.drawPlaneAt n := by
    funext x y old
    rw [State.drawPlaneAt, pen_with_viden hv, planePixel_with_viden hv]
    rfl
  have hcopy : ({ s with viden := v } : State).scratchCopy scan n = s.scratchCopy scan n := by
    funext old
    rw [State.scratchCopy, planePixel_with_viden hv]
    rfl
  rw [State.drawPlane, hdraw, pen_with_viden hv, hcopy]
  rfl

/-- The sprites are drawn by the sprite enable and the flips (R211, R212). -/
theorem drawSprites_with_viden : ({ s with viden := v } : State).drawSprites = s.drawSprites := by
  have hindex : ({ s with viden := v } : State).spriteIndexAt = s.spriteIndexAt := by
    funext p ox x y
    rw [State.spriteIndexAt, gfx_with_viden hv, gfy_with_viden hv]
    rfl
  have hdraw : ({ s with viden := v } : State).drawSpriteAt = s.drawSpriteAt := by
    funext x y old p
    rw [State.drawSpriteAt, hindex]
    rfl
  have hdraws : ({ s with viden := v } : State).drawSpritesAt = s.drawSpritesAt := by
    funext scan x y old
    rw [State.drawSpritesAt, sen_with_viden hv, hdraw]
    rfl
  funext scan c
  rw [State.drawSprites, hdraws]
  rfl

theorem composite_with_viden : ({ s with viden := v } : State).composite = s.composite := by
  funext scan
  have hlayer : ({ s with viden := v } : State).drawLayer scan = s.drawLayer scan := by
    funext c l
    cases l with
    | sprites => exact congrFun₂ (drawSprites_with_viden hv) scan c
    | front | middle | back => exact congrFun (congrFun₂ (drawPlane_with_viden hv) scan _) c
  rw [State.composite, hlayer]
  rfl

/-! ### The collision tests -/

/-- The collision steps run by the sprite enable (R260). -/
theorem collisionsOn_with_viden : ({ s with viden := v } : State).collisionsOn = s.collisionsOn := by
  rw [State.collisionsOn, sen_with_viden hv]
  rfl

theorem collideSprites_with_viden : ({ s with viden := v } : State).collideSprites = s.collideSprites := by
  funext scan coll
  rw [State.collideSprites, collisionsOn_with_viden hv]
  rfl

/-- The test against a plane flips patterns and moves origins by the flips, and runs for enabled planes (R264, R265). -/
theorem collidePlanes_with_viden : ({ s with viden := v } : State).collidePlanes = s.collidePlanes := by
  funext scan pscr coll
  have htest : ({ s with viden := v } : State).planeHit pscr = s.planeHit pscr := by
    funext p n
    rw [State.planeHit, State.testX, State.testY, gfx_with_viden hv, gfy_with_viden hv]
    rfl
  have hhit : ({ s with viden := v } : State).hitPlane pscr = s.hitPlane pscr := by
    funext c pn
    rw [State.hitPlane, pen_with_viden hv, htest]
    rfl
  rw [State.collidePlanes, collisionsOn_with_viden hv, hhit]
  rfl

/-! ### The whole of FRAME -/

/-- Steps 4 to 6 of FRAME read `VIDEN` through the flips and the enables alone (R237, R260). -/
theorem renderScan_with_viden (scan : List Sprite) :
    ({ s with viden := v } : State).renderScan scan = { s.renderScan scan with viden := v } := by
  rw [State.renderScan, composite_with_viden hv, collideSprites_with_viden hv, collidePlanes_with_viden hv]
  rfl

/-- A FRAME does the same to all the rest whatever `OBJEX` is (R240, R388). -/
theorem rendered_with_viden : ({ s with viden := v } : State).rendered = { s.rendered with viden := v } := by
  have hprepared : s.prepared.VidenUpToObjex v := hv
  rw [rendered_eq_renderScan, prepared_with_viden hv, spriteScan_with_viden hprepared,
    renderScan_with_viden hprepared]
  rfl

end

/-- FRAME is never refused under `ignored` (R388). -/
theorem exec_frame_of_ignored {s : State} (h : s.cfg.objexMode = .ignored) : exec .frame s = .next s.rendered :=
  exec_frame_eq_next.2 ⟨fun hrefuse => absurd (h.symm.trans hrefuse.1) (by decide), rfl⟩

end Sys2Proof.Machine
end

section
/-! CERTIFICATE. The statements of spec/70_reset_and_hazards.md, settled. -/

namespace Sys2Proof.Proofs.ResetAndHazards

open Sys2Proof.Machine

/-- Settles O44: no step of FRAME reads `OBJEX` once `ignored` admits both states. -/
theorem objexIgnored : Obligations.ObjexIgnored := by
  intro s t hmode h
  obtain ⟨-, rfl⟩ := exec_frame_eq_next.1 h
  have hflipped : exec .frame { s with viden := s.viden ^^^ 0x04 } =
      .next ({ s with viden := s.viden ^^^ 0x04 } : State).rendered := exec_frame_of_ignored hmode
  rw [hflipped, rendered_with_viden (videnUpToObjex_flip s)]
  rfl

/-- Settles O56: the reset state is the one RESET creates under R5's configuration. -/
theorem resetHasInv : Obligations.ResetHasInv := inv_init Config.standard

end Sys2Proof.Proofs.ResetAndHazards
end
